-- ==== Sys2Proof/Word.lean ====
section
/-! DEFINITION. The word and byte types of the core (spec/00_scope.md R9, R10): every register is 32 bits wide, the message is a
stream of bytes, and every value is unsigned. -/

namespace Sys2Proof

/-- `WORD_BITS` = 32 (spec/00_scope.md R9). -/
abbrev Word := BitVec 32

/-- One byte of the message stream or of the buffer. -/
abbrev Byte := BitVec 8

end Sys2Proof
end

