-- ==== Sys2Proof/Config.lean ====
section
/-! DEFINITION. What an implementation of the core fixes, and the free values. The four round-engine parameters of
spec/00_scope.md R9 and the base address of spec/20_memory.md R78 are open: each is an opaque constant, so that a claim holds for
every legal value of it. The free values stand here as opaque functions of a draw counter that State holds. -/

namespace Sys2Proof.Config

/-- The legal values of `ROUNDS_PER_CYCLE`: the divisors of 80 that spec/00_scope.md R9 lists. -/
inductive RoundsPerCycle
  | r1 | r2 | r4 | r5 | r8 | r10 | r16 | r20 | r40 | r80
deriving DecidableEq, Repr, Inhabited

/-- How many rounds one clock cycle performs (spec/43_compression.md R223). -/
def RoundsPerCycle.count : RoundsPerCycle → Nat
  | .r1 => 1 | .r2 => 2 | .r4 => 4 | .r5 => 5 | .r8 => 8
  | .r10 => 10 | .r16 => 16 | .r20 => 20 | .r40 => 40 | .r80 => 80

/-- The form of one compression unit: the parameters of spec/00_scope.md R9, and what spec/43_compression.md R225 leaves to the
designer of a pipelined form.
DESIGN CHOICE (log 8): `T_BLOCK` is given through the cycles it has beyond its least value, so that every form obeys
spec/70_reset_and_hazards.md R292 by construction. -/
structure Form where
  /-- `ROUNDS_PER_CYCLE`. -/
  roundsPerCycle : RoundsPerCycle
  /-- `PIPELINED`. -/
  pipelined : Bool
  /-- `T_FIXED`: overhead cycles of a command that compresses. -/
  tFixed : Nat
  /-- Cycles of `T_BLOCK` beyond the least value the form allows. -/
  spareCycles : Nat
  /-- The rounds each pipeline stage holds (pipelined form only); the last stage holds all that remain. -/
  stageRounds : Nat → Nat
deriving Inhabited

/-- `T_BLOCK`, clock cycles per compressed block (spec/70_reset_and_hazards.md R292): 1 for the combinational form, the number of
stages for a pipelined form, at least `80 / ROUNDS_PER_CYCLE` for an iterative form.
DESIGN CHOICE (log 12): the spec does not rule out `PIPELINED = true` with `ROUNDS_PER_CYCLE = 80`, for which
spec/43_compression.md R224 gives 1 and R292 the number of stages. Where `PIPELINED` is true the model takes the number of stages,
`spareCycles + 1`, whatever `ROUNDS_PER_CYCLE` is. -/
def Form.tBlock (p : Form) : Nat :=
  if p.pipelined then p.spareCycles + 1
  else match p.roundsPerCycle with
    | .r80 => 1
    | r => 80 / r.count + p.spareCycles

/-- Clock cycles for which BUSY is 1 after a command that compresses `n` blocks (spec/70_reset_and_hazards.md R292). -/
def Form.busyCycles (p : Form) (n : Nat) : Nat := p.tFixed + n * p.tBlock

/-- The form this core is built in. Open: no rule of the semantics depends on it (spec/00_scope.md R8, R9). -/
opaque form : Form

/-- `SHA1_BASE`, the platform's base address of the register window (spec/20_memory.md R78). -/
opaque sha1Base : Nat

/-- The byte address of the register at a word index in the system's address map (spec/20_memory.md R60, R61, R78). -/
def byteAddress (idx : BitVec 6) : Nat := sha1Base + 4 * idx.toNat

/-- FREE VALUE (log 4): the value of the `n`-th draw of `UNSPEC` (spec/00_scope.md R14, spec/42_context.md R196). -/
opaque unspecRead : Nat → Word

/-- FREE VALUE (log 3): how many host operations go before the engine's next clock cycle, for the `n`-th draw. Finite, with no
bound (spec/70_reset_and_hazards.md R295). -/
opaque hostAccesses : Nat → Nat

end Sys2Proof.Config
end

