-- ==== Sys2Proof/Syntax.lean ====
section
/-! DEFINITION. The instructions of the core: one constructor per row of spec/opcode_table.json. Eight rows are command words
(format CMD32, spec/30_encoding.md R91) and forty-six are bus operations (format BUS7, R90). A row that covers several
encodings has the field that tells them apart as its operand. -/

namespace Sys2Proof

/-- A command: what `decode` of spec/30_encoding.md R96 makes of the value of a write to CMD. Its constructors are the CMD32 rows
of the table. -/
inductive Command
  /-- `CMD NOP` (spec/40_update_reset.md R121). -/
  | nop
  /-- `CMD UPDATE nb`, the row of NB = 0..3 (spec/40_update_reset.md R122). -/
  | updateNb0to3 (nb : BitVec 2)
  /-- `CMD UPDATE 4`, the row of NB = 4 (spec/40_update_reset.md R122). -/
  | updateNb4
  /-- `CMD FINALIZE` (spec/41_finalize.md R155). -/
  | finalize
  /-- `CMD FINALIZE_RESET` (spec/41_finalize.md R157). -/
  | finalizeReset
  /-- `CMD RESET` (spec/40_update_reset.md R130). -/
  | reset
  /-- `CMD CLEAR_ERR` (spec/40_update_reset.md R132). -/
  | clearErr
  /-- Every other command word (spec/30_encoding.md R94, R95, R96). -/
  | badCmd (w : Word)
deriving DecidableEq, Repr

/-- One row of spec/opcode_table.json each: first the command words, then the bus reads, then the bus writes. A bus write always
supplies all 32 bits of its value (spec/20_memory.md R62), also where it raises BAD_ADDR. -/
inductive Instr
  /-- `CMD NOP` (R121). -/
  | nop
  /-- `CMD UPDATE nb` with nb = 0..3 (R122). -/
  | updateNb0to3 (nb : BitVec 2)
  /-- `CMD UPDATE 4` (R122). -/
  | updateNb4
  /-- `CMD FINALIZE` (R155). -/
  | finalize
  /-- `CMD FINALIZE_RESET` (R157). -/
  | finalizeReset
  /-- `CMD RESET` (R130). -/
  | reset
  /-- `CMD CLEAR_ERR` (R132). -/
  | clearErr
  /-- A command word that is no command (R96). -/
  | badCmd (w : Word)
  /-- `RD INFO` (R181). -/
  | rdInfo
  /-- `RD CMD` (R182). -/
  | rdCmd
  /-- `RD DATA` (R184). -/
  | rdData
  /-- `RD STATUS` (R186). -/
  | rdStatus
  /-- `RD DIGEST0` (R188). -/
  | rdDigest0
  /-- `RD DIGEST1` (R188). -/
  | rdDigest1
  /-- `RD DIGEST2` (R188). -/
  | rdDigest2
  /-- `RD DIGEST3` (R188). -/
  | rdDigest3
  /-- `RD DIGEST4` (R188). -/
  | rdDigest4
  /-- `RD H0` (R189). -/
  | rdH0
  /-- `RD H1` (R189). -/
  | rdH1
  /-- `RD H2` (R189). -/
  | rdH2
  /-- `RD H3` (R189). -/
  | rdH3
  /-- `RD H4` (R189). -/
  | rdH4
  /-- `RD LEN_LO` (R191). -/
  | rdLenLo
  /-- `RD LEN_HI` (R191). -/
  | rdLenHi
  /-- `RD BUFLEN` (R193). -/
  | rdBuflen
  /-- `RD BUFn` (R195). -/
  | rdBuf (n : BitVec 4)
  /-- `RD IDX9` (R198). -/
  | rdReserved9
  /-- `RD IDX10`, `RD IDX11` (R198). -/
  | rdReserved10to11 (i : BitVec 1)
  /-- `RD IDX12` to `RD IDX15` (R198). -/
  | rdReserved12to15 (i : BitVec 2)
  /-- `RD IDX24` to `RD IDX31` (R198). -/
  | rdReserved24to31 (i : BitVec 3)
  /-- `RD IDX48` to `RD IDX63` (R198). -/
  | rdReserved48to63 (i : BitVec 4)
  /-- `WR INFO`, raises BAD_ADDR (R187). -/
  | wrInfo (v : Word)
  /-- `WR CMD`: the value is a command word (R183). -/
  | wrCmd (v : Word)
  /-- `WR DATA` (R185). -/
  | wrData (v : Word)
  /-- `WR STATUS`, raises BAD_ADDR (R187). -/
  | wrStatus (v : Word)
  /-- `WR DIGEST0`, raises BAD_ADDR (R187). -/
  | wrDigest0 (v : Word)
  /-- `WR DIGEST1`, raises BAD_ADDR (R187). -/
  | wrDigest1 (v : Word)
  /-- `WR DIGEST2`, raises BAD_ADDR (R187). -/
  | wrDigest2 (v : Word)
  /-- `WR DIGEST3`, raises BAD_ADDR (R187). -/
  | wrDigest3 (v : Word)
  /-- `WR DIGEST4`, raises BAD_ADDR (R187). -/
  | wrDigest4 (v : Word)
  /-- `WR H0` (R190). -/
  | wrH0 (v : Word)
  /-- `WR H1` (R190). -/
  | wrH1 (v : Word)
  /-- `WR H2` (R190). -/
  | wrH2 (v : Word)
  /-- `WR H3` (R190). -/
  | wrH3 (v : Word)
  /-- `WR H4` (R190). -/
  | wrH4 (v : Word)
  /-- `WR LEN_LO` (R192). -/
  | wrLenLo (v : Word)
  /-- `WR LEN_HI` (R192). -/
  | wrLenHi (v : Word)
  /-- `WR BUFLEN` (R194). -/
  | wrBuflen (v : Word)
  /-- `WR BUFn` (R197). -/
  | wrBuf (n : BitVec 4) (v : Word)
  /-- `WR IDX9`, raises BAD_ADDR (R198). -/
  | wrReserved9 (v : Word)
  /-- `WR IDX10`, `WR IDX11`, raise BAD_ADDR (R198). -/
  | wrReserved10to11 (i : BitVec 1) (v : Word)
  /-- `WR IDX12` to `WR IDX15`, raise BAD_ADDR (R198). -/
  | wrReserved12to15 (i : BitVec 2) (v : Word)
  /-- `WR IDX24` to `WR IDX31`, raise BAD_ADDR (R198). -/
  | wrReserved24to31 (i : BitVec 3) (v : Word)
  /-- `WR IDX48` to `WR IDX63`, raise BAD_ADDR (R198). -/
  | wrReserved48to63 (i : BitVec 4) (v : Word)
deriving DecidableEq, Repr

/-- An encoded instruction, in one of the two formats of spec/30_encoding.md R90. -/
inductive Code
  /-- CMD32: the value of a bus write to CMD. -/
  | cmd (v : Word)
  /-- BUS7: the seven bits `WE || IDX[5:0]`, with the write value that goes with `WE = 1`. A read carries no value: where
  `WE = 0` the decoder does not look at `v`, and the encoder writes 0 there (log 1). -/
  | bus (op : BitVec 7) (v : Word)
deriving DecidableEq, Repr

end Sys2Proof
end

