-- ==== Sys2Proof/WellFormed.lean ====
section
/-! DEFINITION. Which terms of `Instr` are instructions. The operands' widths are in their types; the one check left is that a
BAD_CMD word is none of the words of a command. -/

namespace Sys2Proof

/-- The canonical command words, as spec/30_encoding.md R102 lists them. -/
def commandWords : List Word :=
  [0x00000000, 0x00000001, 0x00000011, 0x00000021, 0x00000031, 0x00000041,
   0x00000002, 0x00000003, 0x00000004, 0x00000005]

/-- An instruction is well formed when its words are its own: a BAD_CMD row covers 'any 32-bit word not matched by' the rows above
it (spec/opcode_table.json; spec/30_encoding.md R96). -/
def Instr.wellFormed : Instr → Bool
  | .badCmd w => !commandWords.contains w
  | .nop | .updateNb0to3 _ | .updateNb4 | .finalize | .finalizeReset | .reset | .clearErr => true
  | .rdInfo | .rdCmd | .rdData | .rdStatus => true
  | .rdDigest0 | .rdDigest1 | .rdDigest2 | .rdDigest3 | .rdDigest4 => true
  | .rdH0 | .rdH1 | .rdH2 | .rdH3 | .rdH4 | .rdLenLo | .rdLenHi | .rdBuflen | .rdBuf _ => true
  | .rdReserved9 | .rdReserved10to11 _ | .rdReserved12to15 _ | .rdReserved24to31 _ | .rdReserved48to63 _ => true
  | .wrInfo _ | .wrCmd _ | .wrData _ | .wrStatus _ => true
  | .wrDigest0 _ | .wrDigest1 _ | .wrDigest2 _ | .wrDigest3 _ | .wrDigest4 _ => true
  | .wrH0 _ | .wrH1 _ | .wrH2 _ | .wrH3 _ | .wrH4 _ | .wrLenLo _ | .wrLenHi _ | .wrBuflen _ | .wrBuf _ _ => true
  | .wrReserved9 _ | .wrReserved10to11 _ _ | .wrReserved12to15 _ _ | .wrReserved24to31 _ _
  | .wrReserved48to63 _ _ => true

end Sys2Proof
end

