-- ==== Sys2Proof/Decode.lean ====
section
/-! DEFINITION. The decoder, total over both formats of spec/30_encoding.md, and after it the encoder. What has no meaning as a
command is rejected by name: it decodes to BAD_CMD (R94 to R96). Every bus operation is legal to decode (R97); the writes that
raise BAD_ADDR are instructions of their own. -/

namespace Sys2Proof

/-! ## Decoding -/

/-- `OP`, bits [3:0] of a command word (spec/30_encoding.md R91). -/
def opField (v : Word) : BitVec 4 := v.extractLsb' 0 4

/-- `NB`, bits [6:4] of a command word (spec/30_encoding.md R91, R93). -/
def nbField (v : Word) : BitVec 3 := v.extractLsb' 4 3

/-- `RSV`, bits [31:7] of a command word (spec/30_encoding.md R91, R95). -/
def rsvField (v : Word) : BitVec 25 := v.extractLsb' 7 25

/-- A command that takes no operand: its NB must be 0, or the word is BAD_CMD (spec/30_encoding.md R93). -/
def noOperand (v : Word) (c : Command) : Command := if nbField v = 0 then c else .badCmd v

/-- `decode(v)` of spec/30_encoding.md R96: the command a write of `v` to CMD names. -/
def decodeCommand (v : Word) : Command :=
  if rsvField v ≠ 0 then .badCmd v
  else match (opField v).toNat with
    | 0x0 => noOperand v .nop
    | 0x1 =>
      if nbField v = 4 then .updateNb4
      else if nbField v < 4 then .updateNb0to3 ((nbField v).extractLsb' 0 2)
      else .badCmd v
    | 0x2 => noOperand v .finalize
    | 0x3 => noOperand v .finalizeReset
    | 0x4 => noOperand v .reset
    | 0x5 => noOperand v .clearErr
    | _ => .badCmd v

/-- The instruction a command is. -/
def Command.toInstr : Command → Instr
  | .nop => .nop
  | .updateNb0to3 nb => .updateNb0to3 nb
  | .updateNb4 => .updateNb4
  | .finalize => .finalize
  | .finalizeReset => .finalizeReset
  | .reset => .reset
  | .clearErr => .clearErr
  | .badCmd w => .badCmd w

/-- `IDX`, bits [5:0] of a bus operation (spec/30_encoding.md R90). -/
def idxField (op : BitVec 7) : BitVec 6 := op.extractLsb' 0 6

/-- `WE`, bit 6 of a bus operation (spec/30_encoding.md R90). -/
def weField (op : BitVec 7) : Bool := op.getLsbD 6

/-- The read of a word index, by the map of spec/20_memory.md R61: every index may be read (spec/30_encoding.md R97). -/
def decodeRead (idx : BitVec 6) : Instr :=
  match idx.toNat with
  | 0 => .rdInfo
  | 1 => .rdCmd
  | 2 => .rdData
  | 3 => .rdStatus
  | 4 => .rdDigest0
  | 5 => .rdDigest1
  | 6 => .rdDigest2
  | 7 => .rdDigest3
  | 8 => .rdDigest4
  | 9 => .rdReserved9
  | 10 | 11 => .rdReserved10to11 (idx.extractLsb' 0 1)
  | 12 | 13 | 14 | 15 => .rdReserved12to15 (idx.extractLsb' 0 2)
  | 16 => .rdH0
  | 17 => .rdH1
  | 18 => .rdH2
  | 19 => .rdH3
  | 20 => .rdH4
  | 21 => .rdLenLo
  | 22 => .rdLenHi
  | 23 => .rdBuflen
  | n =>
    if n < 32 then .rdReserved24to31 (idx.extractLsb' 0 3)
    else if n < 48 then .rdBuf (idx.extractLsb' 0 4)
    else .rdReserved48to63 (idx.extractLsb' 0 4)

/-- The write of `v` to a word index, by the map of spec/20_memory.md R61. -/
def decodeWrite (idx : BitVec 6) (v : Word) : Instr :=
  match idx.toNat with
  | 0 => .wrInfo v
  | 1 => .wrCmd v
  | 2 => .wrData v
  | 3 => .wrStatus v
  | 4 => .wrDigest0 v
  | 5 => .wrDigest1 v
  | 6 => .wrDigest2 v
  | 7 => .wrDigest3 v
  | 8 => .wrDigest4 v
  | 9 => .wrReserved9 v
  | 10 | 11 => .wrReserved10to11 (idx.extractLsb' 0 1) v
  | 12 | 13 | 14 | 15 => .wrReserved12to15 (idx.extractLsb' 0 2) v
  | 16 => .wrH0 v
  | 17 => .wrH1 v
  | 18 => .wrH2 v
  | 19 => .wrH3 v
  | 20 => .wrH4 v
  | 21 => .wrLenLo v
  | 22 => .wrLenHi v
  | 23 => .wrBuflen v
  | n =>
    if n < 32 then .wrReserved24to31 (idx.extractLsb' 0 3) v
    else if n < 48 then .wrBuf (idx.extractLsb' 0 4) v
    else .wrReserved48to63 (idx.extractLsb' 0 4) v

/-- The bus operation `WE || IDX` with its write value (spec/30_encoding.md R97). -/
def decodeBus (op : BitVec 7) (v : Word) : Instr :=
  if weField op then decodeWrite (idxField op) v else decodeRead (idxField op)

/-- The instruction an encoding stands for, in either format (spec/30_encoding.md R90). -/
def decode : Code → Instr
  | .cmd v => (decodeCommand v).toInstr
  | .bus op v => decodeBus op v

/-! ## Instructions written as numbers -/

/-- The encoding that a number of `nbits` bits lays out: 32 bits are a command word, any other length is a bus operation in bits
[6:0] with its write value in bits [39:8]. Bit 7 belongs to no field: a number that sets it lays out nothing.
DESIGN CHOICE (log 1): the spec numbers the bits of each format by itself and gives no joint layout of the two parts of a bus
write. -/
def codeOfTableWord (nbits w : Nat) : Option Code :=
  let bits := w % 2 ^ nbits
  if nbits = 32 then some (.cmd (BitVec.ofNat 32 bits))
  else if bits.testBit 7 then none
  else some (.bus (BitVec.ofNat 7 bits) (BitVec.ofNat 32 (bits / 256)))

/-- The instruction the decoder reads from a number laid out as spec/opcode_table.json numbers its bits. -/
def decodeTableWord (nbits w : Nat) : Option Instr := (codeOfTableWord nbits w).map decode

/-! ## Encoding -/

/-- A command word from its fields, `RSV || NB || OP` with RSV = 0 (spec/30_encoding.md R91). -/
def commandWord (nb : BitVec 3) (op : BitVec 4) : Word := 0#25 ++ nb ++ op

/-- The bus operation that reads the register at an index. -/
def readCode (idx : BitVec 6) : Code := .bus (0#1 ++ idx) 0

/-- The bus operation that writes the register at an index. -/
def writeCode (idx : BitVec 6) (v : Word) : Code := .bus (1#1 ++ idx) v

/-- The encoding of an instruction: the operation values of spec/30_encoding.md R92 and the indices of spec/20_memory.md R61. -/
def encode : Instr → Code
  | .nop => .cmd (commandWord 0 0x0)
  | .updateNb0to3 nb => .cmd (commandWord (0#1 ++ nb) 0x1)
  | .updateNb4 => .cmd (commandWord 4 0x1)
  | .finalize => .cmd (commandWord 0 0x2)
  | .finalizeReset => .cmd (commandWord 0 0x3)
  | .reset => .cmd (commandWord 0 0x4)
  | .clearErr => .cmd (commandWord 0 0x5)
  | .badCmd w => .cmd w
  | .rdInfo => readCode 0
  | .rdCmd => readCode 1
  | .rdData => readCode 2
  | .rdStatus => readCode 3
  | .rdDigest0 => readCode 4
  | .rdDigest1 => readCode 5
  | .rdDigest2 => readCode 6
  | .rdDigest3 => readCode 7
  | .rdDigest4 => readCode 8
  | .rdReserved9 => readCode 9
  | .rdReserved10to11 i => readCode (0b00101#5 ++ i)
  | .rdReserved12to15 i => readCode (0b0011#4 ++ i)
  | .rdH0 => readCode 16
  | .rdH1 => readCode 17
  | .rdH2 => readCode 18
  | .rdH3 => readCode 19
  | .rdH4 => readCode 20
  | .rdLenLo => readCode 21
  | .rdLenHi => readCode 22
  | .rdBuflen => readCode 23
  | .rdReserved24to31 i => readCode (0b011#3 ++ i)
  | .rdBuf n => readCode (0b10#2 ++ n)
  | .rdReserved48to63 i => readCode (0b11#2 ++ i)
  | .wrInfo v => writeCode 0 v
  | .wrCmd v => writeCode 1 v
  | .wrData v => writeCode 2 v
  | .wrStatus v => writeCode 3 v
  | .wrDigest0 v => writeCode 4 v
  | .wrDigest1 v => writeCode 5 v
  | .wrDigest2 v => writeCode 6 v
  | .wrDigest3 v => writeCode 7 v
  | .wrDigest4 v => writeCode 8 v
  | .wrReserved9 v => writeCode 9 v
  | .wrReserved10to11 i v => writeCode (0b00101#5 ++ i) v
  | .wrReserved12to15 i v => writeCode (0b0011#4 ++ i) v
  | .wrH0 v => writeCode 16 v
  | .wrH1 v => writeCode 17 v
  | .wrH2 v => writeCode 18 v
  | .wrH3 v => writeCode 19 v
  | .wrH4 v => writeCode 20 v
  | .wrLenLo v => writeCode 21 v
  | .wrLenHi v => writeCode 22 v
  | .wrBuflen v => writeCode 23 v
  | .wrReserved24to31 i v => writeCode (0b011#3 ++ i) v
  | .wrBuf n v => writeCode (0b10#2 ++ n) v
  | .wrReserved48to63 i v => writeCode (0b11#2 ++ i) v

end Sys2Proof
end

