-- ==== Sys2Proof/Machine/State.lean ====
section
/-! DEFINITION. The state of one core (spec/10_state.md), the reasons a step could stop, and the state right after hardware
reset. All of it is plain data. -/

namespace Sys2Proof.Machine

/-! ## The kinds of state -/

/-- Five 32-bit words: the hash state H0..H4 (spec/10_state.md R31) or a digest DIGEST0..DIGEST4 (R36). -/
structure Hash where
  h0 : Word
  h1 : Word
  h2 : Word
  h3 : Word
  h4 : Word
deriving DecidableEq, Repr

/-- The working variables a..e of the compression (spec/10_state.md R45, spec/43_compression.md R213). -/
structure Working where
  a : Word
  b : Word
  c : Word
  d : Word
  e : Word
deriving DecidableEq, Repr

/-- The 64 bytes buf[0..63] (spec/10_state.md R35), and a block of the compression (spec/43_compression.md R210). -/
abbrev Buffer := Vector Byte 64

/-- `INFLIGHT`: which accepted command is still running its compressions (spec/10_state.md R42). -/
inductive InFlight
  | none | upd | fin | finr
deriving DecidableEq, Repr

/-- The error causes of spec/60_exceptions.md R251; code 0 (NONE) is the absence of one. -/
inductive ErrCode
  | busy | badCmd | afterFinal | badValue | badAddr
deriving DecidableEq, Repr

/-- The hidden state of the compression unit and its controller (spec/10_state.md R42, R43, R45). No register shows any of it
(spec/43_compression.md R227). -/
structure CompUnit where
  /-- Overhead cycles (`T_FIXED`) still to spend on the command (spec/70_reset_and_hazards.md R292). -/
  overhead : Nat
  /-- Clock cycles already spent on the running block. -/
  cycle : Nat
  /-- The round counter t, 0..79 (spec/10_state.md R42). -/
  t : BitVec 7
  /-- The state H that the running block started from (spec/43_compression.md R217). -/
  chain : Hash
  /-- The working variables a..e. -/
  work : Working
  /-- The rolling window of the message schedule (spec/43_compression.md R222). -/
  window : Vector Word 16
  /-- The block that follows the running one: the second block of a finalize that needs two (spec/10_state.md R43). -/
  next : List Buffer
deriving DecidableEq, Repr

/-- What the world outside does to the core, one item after another in bus order (spec/20_memory.md R66). -/
inductive HostItem
  /-- One bus access, in either format of spec/30_encoding.md R90. -/
  | access (c : Code)
  /-- The host's `POLL`: `RD STATUS` again and again until bit 0 reads 0 (spec/30_encoding.md R101). -/
  | poll
  /-- The level of the reset input `rst_n` from now on (spec/70_reset_and_hazards.md R280). -/
  | rst (level : Bool)
deriving DecidableEq, Repr

/-! ## The state -/

/-- Everything the spec gives one core (spec/10_state.md R30, R42, R45, R49), then the fields the model itself needs. STATUS.BUSY is
`inflight ≠ none` (R38); INFO and CMD store nothing (R40, R41). -/
structure State where
  /-- H0..H4 (spec/10_state.md R31). -/
  h : Hash
  /-- LEN (spec/10_state.md R33). -/
  len : BitVec 64
  /-- BUFLEN (spec/10_state.md R34). -/
  buflen : BitVec 6
  /-- buf[0..63] (spec/10_state.md R35). -/
  buf : Buffer
  /-- DIGEST0..DIGEST4 (spec/10_state.md R36). -/
  digest : Hash
  /-- DATA (spec/10_state.md R37). -/
  data : Word
  /-- STATUS.DVALID (spec/10_state.md R38). -/
  dvalid : Bool
  /-- STATUS.FINAL (spec/10_state.md R38, R39). -/
  final : Bool
  /-- STATUS.ERR (spec/10_state.md R38). -/
  err : Bool
  /-- STATUS.ERRCODE (spec/10_state.md R38). -/
  errcode : BitVec 4
  /-- INFLIGHT (spec/10_state.md R42). -/
  inflight : InFlight
  /-- The compression unit's internals (spec/10_state.md R42, R45). -/
  unit : CompUnit
  /-- The level of the input `rst_n` (spec/70_reset_and_hazards.md R280). -/
  rstN : Bool
  /-- The bus read data (spec/10_state.md R49): the value this step's read returned, `none` if it made no read (log 6). -/
  rdata : Option Word
  /-- The model's record of every raise, oldest first (spec/60_exceptions.md R268; log 7). -/
  faults : List ErrCode
  /-- The model's own: what the host has still to do, in bus order (log 2). -/
  pending : List HostItem
  /-- The model's own: host items that go before the engine's next clock cycle (log 3). -/
  engineWait : Nat
  /-- The model's own: how many free values have been drawn (log 4). -/
  draws : Nat
deriving DecidableEq, Repr

/-- Why the machine would stop with a fault: never. The core's errors are recorded and it goes on (spec/60_exceptions.md R255), so
no step raises a fault and the type has no constructor (safe: nothing is claimed of a stopped machine). -/
inductive Fault
deriving DecidableEq, Repr

/-- Why the model would refuse an instruction. -/
inductive Refusal
  /-- An instruction the model has no meaning for, by its mnemonic: raised by an arm of `exec` only, and at present by none
  (safe: a run stops there). -/
  | notModelled (mnemonic : String)
deriving DecidableEq, Repr

/-! ## Reset -/

/-- The IV (spec/10_state.md R32). -/
def iv : Hash := ⟨0x67452301, 0xEFCDAB89, 0x98BADCFE, 0x10325476, 0xC3D2E1F0⟩

/-- The compression unit after hardware reset. The spec: 'unspecified; not observable' (spec/10_state.md R47). DESIGN CHOICE (log 5):
all zero. -/
def CompUnit.zero : CompUnit where
  overhead := 0
  cycle := 0
  t := 0
  chain := ⟨0, 0, 0, 0, 0⟩
  work := ⟨0, 0, 0, 0, 0⟩
  window := Vector.replicate 16 0
  next := []

/-- The machine right after hardware reset (spec/10_state.md R47, spec/70_reset_and_hazards.md R280, R283). The model's own fields:
no host item waiting (log 2), no free value drawn (log 3, log 4), no read made (log 6), no raise recorded (log 7). -/
def State.reset : State where
  h := iv
  len := 0
  buflen := 0
  buf := Vector.replicate 64 0
  digest := ⟨0, 0, 0, 0, 0⟩
  data := 0
  dvalid := false
  final := false
  err := false
  errcode := 0
  inflight := .none
  unit := CompUnit.zero
  rstN := true
  rdata := none
  faults := []
  pending := []
  engineWait := 0
  draws := 0

end Sys2Proof.Machine
end

