-- ==== Sys2Proof/Machine/Bytes.lean ====
section
/-! DEFINITION. Rotation, byte order and the byte-wise operations on the 64-byte buffer (spec/00_scope.md R12, R13). -/

namespace Sys2Proof.Machine

/-- `ROTL32(x, n)` (spec/00_scope.md R12). -/
def rotl (x : Word) (n : Nat) : Word := (x <<< n) ||| (x >>> (32 - n))

/-- `be32(x)`: the four bytes of a word, most significant first (spec/00_scope.md R13). -/
def be32 (x : Word) : List Byte :=
  [x.extractLsb' 24 8, x.extractLsb' 16 8, x.extractLsb' 8 8, x.extractLsb' 0 8]

/-- `be64(x)`: the eight bytes of a 64-bit value, most significant first (spec/00_scope.md R13). -/
def be64 (x : BitVec 64) : List Byte :=
  [x.extractLsb' 56 8, x.extractLsb' 48 8, x.extractLsb' 40 8, x.extractLsb' 32 8,
   x.extractLsb' 24 8, x.extractLsb' 16 8, x.extractLsb' 8 8, x.extractLsb' 0 8]

/-- `word_be(b0, b1, b2, b3)` (spec/00_scope.md R13). -/
def wordBe (b0 b1 b2 b3 : Byte) : Word := b0 ++ b1 ++ b2 ++ b3

/-- buf[i]. Positions are 0..63; the value at another position is never used. -/
def byteAt (m : Buffer) (i : Nat) : Byte := m.getD i 0

/-- `buf[i] <- b`. -/
def putByte (m : Buffer) (i : Nat) (b : Byte) : Buffer := m.setIfInBounds i b

/-- `buf[i], buf[i+1], ... <- b0, b1, ...`. -/
def putBytes (m : Buffer) (i : Nat) : List Byte → Buffer
  | [] => m
  | b :: bs => putBytes (putByte m i b) (i + 1) bs

/-- `for j in lo..hi: buf[j] <- 0x00` (half-open, spec/00_scope.md R14). -/
def zeroBytes (m : Buffer) (lo hi : Nat) : Buffer := putBytes m lo (List.replicate (hi - lo) 0)

end Sys2Proof.Machine
end

