-- ==== Sys2Proof/Machine/Compress.lean ====
section
/-! DEFINITION. The compression transform (spec/43_compression.md R210 to R221): a total, pure function of a state of five words and
a block of 64 bytes. -/

namespace Sys2Proof.Machine

/-- The sixteen message words `w[0..16)`, big-endian (spec/43_compression.md R211). -/
def loadWords (B : Buffer) : List Word :=
  (List.range 16).map fun i =>
    wordBe (byteAt B (4 * i)) (byteAt B (4 * i + 1)) (byteAt B (4 * i + 2)) (byteAt B (4 * i + 3))

/-- `w[t]` from `w[0..t)`, for t ≥ 16 (spec/43_compression.md R212). -/
def scheduleWord (ws : List Word) : Word :=
  let t := ws.length
  rotl (ws.getD (t - 3) 0 ^^^ ws.getD (t - 8) 0 ^^^ ws.getD (t - 14) 0 ^^^ ws.getD (t - 16) 0) 1

/-- `n` more schedule words (spec/43_compression.md R212). -/
def extendSchedule : Nat → List Word → List Word
  | 0, ws => ws
  | n + 1, ws => extendSchedule n (ws ++ [scheduleWord ws])

/-- The message schedule `w[0..80)` of a block (spec/43_compression.md R211, R212). -/
def schedule (B : Buffer) : List Word := extendSchedule 64 (loadWords B)

/-- The round function `f(t, b, c, d)` (spec/43_compression.md R214). -/
def roundFunction (t : Nat) (b c d : Word) : Word :=
  if t < 20 then (b &&& c) ||| (~~~b &&& d)
  else if t < 40 then b ^^^ c ^^^ d
  else if t < 60 then (b &&& c) ||| (b &&& d) ||| (c &&& d)
  else b ^^^ c ^^^ d

/-- The round constant `k(t)` (spec/43_compression.md R215). -/
def roundConstant (t : Nat) : Word :=
  if t < 20 then 0x5A827999
  else if t < 40 then 0x6ED9EBA1
  else if t < 60 then 0x8F1BBCDC
  else 0xCA62C1D6

/-- Round t on the working variables, with schedule word `w` (spec/43_compression.md R216). -/
def roundStep (t : Nat) (w : Word) (v : Working) : Working where
  a := rotl v.a 5 + roundFunction t v.b v.c v.d + v.e + roundConstant t + w
  b := v.a
  c := rotl v.b 30
  d := v.c
  e := v.d

/-- Rounds t, t+1, ... with the schedule words given, in increasing order (spec/43_compression.md R216). -/
def runRounds : Nat → List Word → Working → Working
  | _, [], v => v
  | t, w :: ws, v => runRounds (t + 1) ws (roundStep t w v)

/-- `(a, b, c, d, e) = State` (spec/43_compression.md R213). -/
def Working.ofHash (H : Hash) : Working := ⟨H.h0, H.h1, H.h2, H.h3, H.h4⟩

/-- The final addition, each word mod 2^32 (spec/43_compression.md R217). -/
def Hash.add (H : Hash) (v : Working) : Hash :=
  ⟨H.h0 + v.a, H.h1 + v.b, H.h2 + v.c, H.h3 + v.d, H.h4 + v.e⟩

/-- `Compress(H, B)` (spec/43_compression.md R221). -/
def compress (H : Hash) (B : Buffer) : Hash :=
  H.add (runRounds 0 (schedule B) (Working.ofHash H))

/-- Compressions of several blocks, 'one call per 64-byte block, in strict block order' (spec/10_state.md R31). -/
def compressAll (H : Hash) (blocks : List Buffer) : Hash := blocks.foldl compress H

end Sys2Proof.Machine
end

