-- ==== Sys2Proof/Machine/CompressionUnit.lean ====
section
/-! DEFINITION. The hardware forms of the transform (spec/43_compression.md R222 to R226), clock cycle by clock cycle: the rolling
schedule window, the round counter, and the controller that runs one block or two (spec/10_state.md R43). Every function takes the
form as an argument; the core's own is `Config.form`. The unit works on its own copies while the architectural registers already
hold the command's whole effect (spec/00_scope.md R16, spec/43_compression.md R228); nothing but the number of cycles is visible
(R226, R227). -/

namespace Sys2Proof.Machine

/-- Entry `i mod 16` of the rolling window (spec/43_compression.md R222). -/
def windowAt (w : Vector Word 16) (i : Nat) : Word := w.getD (i % 16) 0

/-- The window at round t, before the round uses it (spec/43_compression.md R222). -/
def windowStep (t : Nat) (w : Vector Word 16) : Vector Word 16 :=
  if t < 16 then w
  else w.setIfInBounds (t % 16)
    (rotl (windowAt w (t - 3) ^^^ windowAt w (t - 8) ^^^ windowAt w (t - 14) ^^^ windowAt w t) 1)

/-- The window loaded with the sixteen words of a block (spec/43_compression.md R211). -/
def loadWindow (B : Buffer) : Vector Word 16 :=
  Vector.ofFn fun i => (loadWords B).getD i.val 0

namespace CompUnit

/-- One round on the unit's registers (spec/43_compression.md R216, R222). -/
def round (u : CompUnit) : CompUnit :=
  let window := windowStep u.t.toNat u.window
  { u with
    window := window
    work := roundStep u.t.toNat (windowAt window u.t.toNat) u.work
    t := u.t + 1 }

/-- `n` rounds chained in round order (spec/43_compression.md R223). -/
def rounds : Nat → CompUnit → CompUnit
  | 0, u => u
  | n + 1, u => rounds n u.round

/-- The unit takes a block: the working variables start from H (spec/43_compression.md R213) and the block's bytes are copied
(spec/40_update_reset.md R126). -/
def load (H : Hash) (B : Buffer) (rest : List Buffer) (u : CompUnit) : CompUnit :=
  { u with
    cycle := 0
    t := 0
    chain := H
    work := Working.ofHash H
    window := loadWindow B
    next := rest }

/-- The unit starts on a command's blocks, in order (spec/10_state.md R43). Without a block there is nothing to start.
DESIGN CHOICE (log 8): the overhead cycles `T_FIXED` come before the first block. -/
def start (p : Config.Form) (H : Hash) (blocks : List Buffer) (u : CompUnit) : CompUnit :=
  match blocks with
  | [] => u
  | B :: rest => load H B rest { u with overhead := p.tFixed }

/-- Is this clock cycle the last of the running block's `T_BLOCK` cycles? -/
def lastCycle (p : Config.Form) (u : CompUnit) : Bool := p.tBlock ≤ u.cycle + 1

/-- How many rounds this clock cycle performs: `ROUNDS_PER_CYCLE` in an iterative form (spec/43_compression.md R223), the stage's
share in a pipelined one (R225), and in a block's last cycle all that remain, which is all 80 in the combinational form (R224).
DESIGN CHOICE (log 8): the cycles an iterative form has beyond `80 / ROUNDS_PER_CYCLE` come first.
DESIGN CHOICE (log 12): a pipelined form does its stages' shares whatever `ROUNDS_PER_CYCLE` is, 80 included. -/
def roundsNow (p : Config.Form) (u : CompUnit) : Nat :=
  if u.lastCycle p then 80 - u.t.toNat
  else
    let share :=
      if p.pipelined then p.stageRounds u.cycle
      else if u.cycle < p.spareCycles then 0
      else p.roundsPerCycle.count
    min share (79 - u.t.toNat)

/-- One clock cycle of the unit, and whether the command's last block finished in it (spec/10_state.md R43). At a block's end the
final addition gives the next H (spec/43_compression.md R217), and a waiting block is loaded. -/
def clock (p : Config.Form) (u : CompUnit) : CompUnit × Bool :=
  if 0 < u.overhead then ({ u with overhead := u.overhead - 1 }, false)
  else
    let v := rounds (u.roundsNow p) u
    if u.lastCycle p then
      let H := u.chain.add v.work
      match u.next with
      | [] => ({ v with cycle := 0, t := 0, chain := H }, true)
      | B :: rest => (load H B rest v, false)
    else ({ v with cycle := u.cycle + 1 }, false)

/-- Clock cycles until the unit finishes (spec/70_reset_and_hazards.md R292). -/
def cyclesLeft (p : Config.Form) (u : CompUnit) : Nat :=
  u.overhead + (p.tBlock - u.cycle) + u.next.length * p.tBlock

/-- The state H that the unit will have computed when it finishes: the rest of the running block's rounds, the final addition, then
the waiting blocks. -/
def result (u : CompUnit) : Hash :=
  compressAll (u.chain.add (rounds (80 - u.t.toNat) u).work) u.next

end CompUnit

end Sys2Proof.Machine
end

