-- ==== Sys2Proof/Machine/Flags.lean ====
section
/-! DEFINITION. The STATUS fields and the output signals (spec/10_state.md R38, R49). The core has no arithmetic flags (R44). -/

namespace Sys2Proof.Machine

/-- The code of an error cause, as ERRCODE holds it (spec/60_exceptions.md R251). -/
def ErrCode.code : ErrCode → BitVec 4
  | .busy => 1
  | .badCmd => 2
  | .afterFinal => 3
  | .badValue => 4
  | .badAddr => 5

/-- STATUS.BUSY: 1 while a command is in flight (spec/10_state.md R38, R42). -/
def State.busy (s : State) : Bool := s.inflight ≠ .none

/-- The STATUS word: `zext32(ERRCODE || ERR || FINAL || DVALID || BUSY)` (spec/42_context.md R186). -/
def State.status (s : State) : Word :=
  0#24 ++ s.errcode ++ BitVec.ofBool s.err ++ BitVec.ofBool s.final ++ BitVec.ofBool s.dvalid ++ BitVec.ofBool s.busy

/-- The output `busy_o` (spec/10_state.md R49). -/
def State.busyO (s : State) : Bool := s.busy

/-- The output `err_o` (spec/10_state.md R49). -/
def State.errO (s : State) : Bool := s.err

end Sys2Proof.Machine
end

