-- ==== Sys2Proof/Machine/Operands.lean ====
section
/-! DEFINITION. The operand forms: the beat that UPDATE takes from DATA, the halves of LEN, the words of the buffer, and the INFO
constant. -/

namespace Sys2Proof.Machine

/-- `INFO` (spec/10_state.md R40): output size 20 in [7:0], block size 64 in [15:8]. -/
def infoValue : Word := 0x00004014

/-- The bytes of a beat: the first NB bytes of `be32(DATA)`, in that order (spec/40_update_reset.md R123, spec/20_memory.md R67). -/
def beatBytes (nb : Nat) (data : Word) : List Byte := (be32 data).take nb

/-- `BUFn`: buf[4n] in [31:24] down to buf[4n+3] in [7:0] (spec/20_memory.md R68, spec/42_context.md R195). -/
def bufWord (m : Buffer) (n : BitVec 4) : Word :=
  wordBe (byteAt m (4 * n.toNat)) (byteAt m (4 * n.toNat + 1)) (byteAt m (4 * n.toNat + 2)) (byteAt m (4 * n.toNat + 3))

/-- `BUFn <- v`, byte by byte (spec/42_context.md R197). -/
def putBufWord (m : Buffer) (n : BitVec 4) (v : Word) : Buffer := putBytes m (4 * n.toNat) (be32 v)

/-- `LEN_LO = LEN[31:0]` (spec/20_memory.md R70). -/
def lenLo (len : BitVec 64) : Word := len.extractLsb' 0 32

/-- `LEN_HI = LEN[63:32]` (spec/20_memory.md R70). -/
def lenHi (len : BitVec 64) : Word := len.extractLsb' 32 32

/-- `LEN[31:0] <- v`, leaving LEN[63:32] (spec/42_context.md R192). -/
def withLenLo (len : BitVec 64) (v : Word) : BitVec 64 := lenHi len ++ v

/-- `LEN[63:32] <- v`, leaving LEN[31:0] (spec/42_context.md R192). -/
def withLenHi (len : BitVec 64) (v : Word) : BitVec 64 := v ++ lenLo len

/-- The bits [31:6] of a value written to BUFLEN, which must be 0 (spec/42_context.md R194). -/
def buflenUpper (v : Word) : BitVec 26 := v.extractLsb' 6 26

/-- The bits [5:0] of a value written to BUFLEN (spec/42_context.md R194). -/
def buflenLower (v : Word) : BitVec 6 := v.extractLsb' 0 6

/-- The word a BUFLEN read returns: bits [31:6] are 0 (spec/42_context.md R193). -/
def buflenWord (n : BitVec 6) : Word := 0#26 ++ n

end Sys2Proof.Machine
end

