-- ==== Sys2Proof/Machine/Ops.lean ====
section
/-! DEFINITION. The operations the meanings share: the error action and the return from it, the reads and writes of the register
window, the acceptance checks of a command, the start and the completion of an in-flight command, and hardware reset. -/

namespace Sys2Proof.Machine

/-- What the meaning of an instruction answers. -/
abbrev Result := Host.Outcome State Fault Refusal

/-! ## Errors -/

/-- `raise Err(code)` (spec/60_exceptions.md R252): the first error since ERR was last 0 sets ERRCODE, and every raise is recorded
(R268). The access ends here, so this is all it does; nothing is saved and no vector is taken (R255). -/
def raise (c : ErrCode) (s : State) : State :=
  { s with
    err := true
    errcode := if s.err then s.errcode else c.code
    faults := s.faults ++ [c] }

/-- The return from an error (spec/60_exceptions.md R257, spec/40_update_reset.md R132): ERR and ERRCODE go to 0. The record of
raises stays (R268). -/
def clearError (s : State) : State := { s with err := false, errcode := 0 }

/-! ## Reads and writes of the window -/

/-- A read returns `v` and changes no register (spec/20_memory.md R64). -/
def returnWord (v : Word) (s : State) : State := { s with rdata := some v }

/-- A read returns UNSPEC: a fresh free value (spec/42_context.md R196, spec/00_scope.md R14; log 4). -/
def returnUnspec (s : State) : State :=
  { s with rdata := some (Config.unspecRead s.draws), draws := s.draws + 1 }

/-- A read of a context register: its value when nothing is in flight, else UNSPEC (spec/42_context.md R189, R191, R193, R195,
R196). -/
def readContext (v : Word) (s : State) : State :=
  if s.inflight = .none then returnWord v s else returnUnspec s

/-- A read of a DIGEST register: UNSPEC while a finalize is in flight, its value else (spec/42_context.md R188, R196). -/
def readDigest (v : Word) (s : State) : State :=
  match s.inflight with
  | .none | .upd => returnWord v s
  | .fin | .finr => returnUnspec s

/-- A write of a context register: refused with BUSY while a command is in flight (spec/42_context.md R190, R192, R194, R197). -/
def writeContext (effect : State → State) (s : State) : State :=
  if s.inflight = .none then effect s else raise .busy s

/-! ## Commands -/

/-- The checks of UPDATE, FINALIZE and FINALIZE_RESET, in order: BUSY, then AFTER_FINAL (spec/40_update_reset.md R120). -/
def acceptInAbsorb (effect : State → State) (s : State) : State :=
  if s.inflight = .none then
    if s.final then raise .afterFinal s else effect s
  else raise .busy s

/-- The check of RESET: BUSY only (spec/40_update_reset.md R120, R130). -/
def acceptWhenIdle (effect : State → State) (s : State) : State :=
  if s.inflight = .none then effect s else raise .busy s

/-- A command goes in flight with the blocks it compresses (spec/40_update_reset.md R127, spec/41_finalize.md R155): INFLIGHT is
set, the unit starts from the H before the command, and the time of the engine's first clock cycle is drawn (log 3). -/
def launch (kind : InFlight) (H : Hash) (blocks : List Buffer) (s : State) : State :=
  { s with
    inflight := kind
    unit := s.unit.start Config.form H blocks
    engineWait := Config.hostAccesses s.draws
    draws := s.draws + 1 }

/-- The completion step: INFLIGHT goes to NONE, and for a finalize DVALID to 1 (spec/40_update_reset.md R129,
spec/41_finalize.md R161). -/
def complete (s : State) : State :=
  match s.inflight with
  | .none => s
  | .upd => { s with inflight := .none }
  | .fin | .finr => { s with inflight := .none, dvalid := true }

/-! ## Hardware reset -/

/-- Every piece of the core's state takes its reset value and an in-flight command is dropped (spec/70_reset_and_hazards.md R280,
R281; spec/10_state.md R47). The pins and the model's own fields are not the core's: they stay. -/
def hardwareReset (s : State) : State :=
  { State.reset with
    rstN := s.rstN
    rdata := s.rdata
    faults := s.faults
    pending := s.pending
    engineWait := s.engineWait
    draws := s.draws }

end Sys2Proof.Machine
end

