-- ==== Sys2Proof/Machine/Commands.lean ====
section
/-! DEFINITION. The commands of the streaming engine: NOP, UPDATE, RESET, CLEAR_ERR and BAD_CMD (spec/40_update_reset.md). Each
meaning is the acceptance procedure of R120 for its command, the decoding done. -/

namespace Sys2Proof.Machine

/-- One byte enters the buffer: the body of UPDATE's loop (spec/40_update_reset.md R122, R125). The 64th byte compresses the block
and empties the buffer at once, and the command goes in flight (R127). -/
def absorbByte (s : State) (b : Byte) : State :=
  let buf := putByte s.buf s.buflen.toNat b
  if s.buflen.toNat + 1 = 64 then
    launch .upd s.h [buf] { s with buf := buf, h := compress s.h buf, buflen := 0 }
  else { s with buf := buf, buflen := s.buflen + 1 }

/-- Bytes enter the buffer in stream order (spec/40_update_reset.md R125). -/
def absorb (s : State) (bytes : List Byte) : State := bytes.foldl absorbByte s

/-- The effect of `UPDATE(NB)` (spec/40_update_reset.md R122, R124). -/
def updateEffect (nb : Nat) (s : State) : State :=
  absorb { s with len := s.len + BitVec.ofNat 64 nb } (beatBytes nb s.data)

/-- The effect of `RESET` (spec/40_update_reset.md R130). -/
def resetEffect (s : State) : State := { s with h := iv, len := 0, buflen := 0, final := false }

/-- NOP (spec/40_update_reset.md R121): it changes no state, and is accepted in every state. -/
def execNop (s : State) : Result := .next s

/-- UPDATE with NB = 0..3 (spec/40_update_reset.md R122, R133). -/
def execUpdateNb0to3 (nb : BitVec 2) (s : State) : Result :=
  .next (acceptInAbsorb (updateEffect nb.toNat) s)

/-- UPDATE with NB = 4 (spec/40_update_reset.md R122). -/
def execUpdateNb4 (s : State) : Result := .next (acceptInAbsorb (updateEffect 4) s)

/-- RESET (spec/40_update_reset.md R130, R131). -/
def execReset (s : State) : Result := .next (acceptWhenIdle resetEffect s)

/-- CLEAR_ERR (spec/40_update_reset.md R132), accepted in every state. -/
def execClearErr (s : State) : Result := .next (clearError s)

/-- A word that is no command raises BAD_CMD, in every state and before any other check (spec/40_update_reset.md R120,
spec/60_exceptions.md R254). -/
def execBadCmd (_w : Word) (s : State) : Result := .next (raise .badCmd s)

end Sys2Proof.Machine
end

