-- ==== Sys2Proof/Machine/Finalize.lean ====
section
/-! DEFINITION. Padding and the two finalize commands (spec/41_finalize.md), and the write of CMD that runs every command. -/

namespace Sys2Proof.Machine

/-- `bitlen = (LEN << 3) mod 2^64` (spec/41_finalize.md R151). -/
def bitLength (len : BitVec 64) : BitVec 64 := len <<< 3

/-- Step 3 of the padding: buf[56..63] <- be64(bitlen) (spec/41_finalize.md R152). -/
def putLength (len : BitVec 64) (m : Buffer) : Buffer := putBytes m 56 (be64 (bitLength len))

/-- The padding blocks in the order they are compressed: one when L ≤ 55, two when 56 ≤ L ≤ 63 (spec/41_finalize.md R152, R153). -/
def padBlocks (len : BitVec 64) (L : Nat) (m : Buffer) : List Buffer :=
  let marked := putByte m L 0x80
  if L ≤ 55 then [putLength len (zeroBytes marked (L + 1) 56)]
  else
    let first := zeroBytes marked (L + 1) 64
    [first, putLength len (zeroBytes first 0 56)]

/-- The padding blocks of the machine as it stands. -/
def State.padBlocks (s : State) : List Buffer := Machine.padBlocks s.len s.buflen.toNat s.buf

/-- `PAD_AND_COMPRESS` (spec/41_finalize.md R152): the buffer is left holding the last block compressed. -/
def padAndCompress (s : State) : State :=
  { s with
    h := compressAll s.h s.padBlocks
    buf := s.padBlocks.getLastD s.buf
    buflen := 0 }

/-- What both finalize commands do after the padding: DIGEST takes H and DVALID goes to 0 (spec/41_finalize.md R154, R159). -/
def latchDigest (s : State) : State := { s with digest := s.h, dvalid := false }

/-- The effect of `FINALIZE` (spec/41_finalize.md R155). -/
def finalizeEffect (s : State) : State :=
  launch .fin s.h s.padBlocks { latchDigest (padAndCompress s) with final := true }

/-- The effect of `FINALIZE_RESET` (spec/41_finalize.md R157). -/
def finalizeResetEffect (s : State) : State :=
  launch .finr s.h s.padBlocks { latchDigest (padAndCompress s) with h := iv, len := 0, buflen := 0 }

/-- FINALIZE (spec/41_finalize.md R155, R160). -/
def execFinalize (s : State) : Result := .next (acceptInAbsorb finalizeEffect s)

/-- FINALIZE_RESET (spec/41_finalize.md R157, R160). -/
def execFinalizeReset (s : State) : Result := .next (acceptInAbsorb finalizeResetEffect s)

/-- The acceptance procedure of a decoded command (spec/40_update_reset.md R120). -/
def execCommand (c : Command) (s : State) : Result :=
  match c with
  | .nop => execNop s
  | .updateNb0to3 nb => execUpdateNb0to3 nb s
  | .updateNb4 => execUpdateNb4 s
  | .finalize => execFinalize s
  | .finalizeReset => execFinalizeReset s
  | .reset => execReset s
  | .clearErr => execClearErr s
  | .badCmd w => execBadCmd w s

/-- WR CMD: the procedure of spec/40_update_reset.md R120 on the value written (spec/42_context.md R183). -/
def execWrCmd (v : Word) (s : State) : Result := execCommand (decodeCommand v) s

end Sys2Proof.Machine
end

