-- ==== Sys2Proof/Machine/Reads.lean ====
section
/-! DEFINITION. The bus reads (spec/42_context.md). No read raises an error or changes a register (spec/20_memory.md R64). -/

namespace Sys2Proof.Machine

/-- RD INFO (spec/42_context.md R181). -/
def execRdInfo (s : State) : Result := .next (returnWord infoValue s)

/-- RD CMD (spec/42_context.md R182): CMD stores nothing and reads 0. -/
def execRdCmd (s : State) : Result := .next (returnWord 0 s)

/-- RD DATA (spec/42_context.md R184). -/
def execRdData (s : State) : Result := .next (returnWord s.data s)

/-- RD STATUS (spec/42_context.md R186). -/
def execRdStatus (s : State) : Result := .next (returnWord s.status s)

/-- RD DIGEST0 (spec/42_context.md R188). -/
def execRdDigest0 (s : State) : Result := .next (readDigest s.digest.h0 s)

/-- RD DIGEST1 (spec/42_context.md R188). -/
def execRdDigest1 (s : State) : Result := .next (readDigest s.digest.h1 s)

/-- RD DIGEST2 (spec/42_context.md R188). -/
def execRdDigest2 (s : State) : Result := .next (readDigest s.digest.h2 s)

/-- RD DIGEST3 (spec/42_context.md R188). -/
def execRdDigest3 (s : State) : Result := .next (readDigest s.digest.h3 s)

/-- RD DIGEST4 (spec/42_context.md R188). -/
def execRdDigest4 (s : State) : Result := .next (readDigest s.digest.h4 s)

/-- RD H0 (spec/42_context.md R189). -/
def execRdH0 (s : State) : Result := .next (readContext s.h.h0 s)

/-- RD H1 (spec/42_context.md R189). -/
def execRdH1 (s : State) : Result := .next (readContext s.h.h1 s)

/-- RD H2 (spec/42_context.md R189). -/
def execRdH2 (s : State) : Result := .next (readContext s.h.h2 s)

/-- RD H3 (spec/42_context.md R189). -/
def execRdH3 (s : State) : Result := .next (readContext s.h.h3 s)

/-- RD H4 (spec/42_context.md R189). -/
def execRdH4 (s : State) : Result := .next (readContext s.h.h4 s)

/-- RD LEN_LO (spec/42_context.md R191). -/
def execRdLenLo (s : State) : Result := .next (readContext (lenLo s.len) s)

/-- RD LEN_HI (spec/42_context.md R191). -/
def execRdLenHi (s : State) : Result := .next (readContext (lenHi s.len) s)

/-- RD BUFLEN (spec/42_context.md R193). -/
def execRdBuflen (s : State) : Result := .next (readContext (buflenWord s.buflen) s)

/-- RD BUFn (spec/42_context.md R195): stale bytes are returned as stored. -/
def execRdBuf (n : BitVec 4) (s : State) : Result := .next (readContext (bufWord s.buf n) s)

/-- RD of the reserved IDX9 (spec/42_context.md R198): 0, and no error. -/
def execRdReserved9 (s : State) : Result := .next (returnWord 0 s)

/-- RD of the reserved IDX10, IDX11 (spec/42_context.md R198): 0, and no error. -/
def execRdReserved10to11 (_i : BitVec 1) (s : State) : Result := .next (returnWord 0 s)

/-- RD of the reserved IDX12 to IDX15 (spec/42_context.md R198): 0, and no error. -/
def execRdReserved12to15 (_i : BitVec 2) (s : State) : Result := .next (returnWord 0 s)

/-- RD of the reserved IDX24 to IDX31 (spec/42_context.md R198): 0, and no error. -/
def execRdReserved24to31 (_i : BitVec 3) (s : State) : Result := .next (returnWord 0 s)

/-- RD of the reserved IDX48 to IDX63 (spec/42_context.md R198): 0, and no error. -/
def execRdReserved48to63 (_i : BitVec 4) (s : State) : Result := .next (returnWord 0 s)

end Sys2Proof.Machine
end

