-- ==== Sys2Proof/Machine/Writes.lean ====
section
/-! DEFINITION. The bus writes other than WR CMD (spec/42_context.md). Form errors come before BUSY (spec/60_exceptions.md R254). -/

namespace Sys2Proof.Machine

/-- WR DATA (spec/42_context.md R185): accepted in every state. -/
def execWrData (v : Word) (s : State) : Result := .next { s with data := v }

/-- WR H0 (spec/42_context.md R190). -/
def execWrH0 (v : Word) (s : State) : Result :=
  .next (writeContext (fun s => { s with h := { s.h with h0 := v } }) s)

/-- WR H1 (spec/42_context.md R190). -/
def execWrH1 (v : Word) (s : State) : Result :=
  .next (writeContext (fun s => { s with h := { s.h with h1 := v } }) s)

/-- WR H2 (spec/42_context.md R190). -/
def execWrH2 (v : Word) (s : State) : Result :=
  .next (writeContext (fun s => { s with h := { s.h with h2 := v } }) s)

/-- WR H3 (spec/42_context.md R190). -/
def execWrH3 (v : Word) (s : State) : Result :=
  .next (writeContext (fun s => { s with h := { s.h with h3 := v } }) s)

/-- WR H4 (spec/42_context.md R190). -/
def execWrH4 (v : Word) (s : State) : Result :=
  .next (writeContext (fun s => { s with h := { s.h with h4 := v } }) s)

/-- WR LEN_LO (spec/42_context.md R192). -/
def execWrLenLo (v : Word) (s : State) : Result :=
  .next (writeContext (fun s => { s with len := withLenLo s.len v }) s)

/-- WR LEN_HI (spec/42_context.md R192). -/
def execWrLenHi (v : Word) (s : State) : Result :=
  .next (writeContext (fun s => { s with len := withLenHi s.len v }) s)

/-- WR BUFLEN (spec/42_context.md R194): BAD_VALUE before BUSY. -/
def execWrBuflen (v : Word) (s : State) : Result :=
  .next (if buflenUpper v ≠ 0 then raise .badValue s
    else writeContext (fun s => { s with buflen := buflenLower v }) s)

/-- WR BUFn (spec/42_context.md R197). -/
def execWrBuf (n : BitVec 4) (v : Word) (s : State) : Result :=
  .next (writeContext (fun s => { s with buf := putBufWord s.buf n v }) s)

/-- WR INFO (spec/42_context.md R187): read-only, BAD_ADDR in every state. -/
def execWrInfo (_v : Word) (s : State) : Result := .next (raise .badAddr s)

/-- WR STATUS (spec/42_context.md R187): read-only, BAD_ADDR in every state. -/
def execWrStatus (_v : Word) (s : State) : Result := .next (raise .badAddr s)

/-- WR DIGEST0 (spec/42_context.md R187): read-only, BAD_ADDR in every state. -/
def execWrDigest0 (_v : Word) (s : State) : Result := .next (raise .badAddr s)

/-- WR DIGEST1 (spec/42_context.md R187): read-only, BAD_ADDR in every state. -/
def execWrDigest1 (_v : Word) (s : State) : Result := .next (raise .badAddr s)

/-- WR DIGEST2 (spec/42_context.md R187): read-only, BAD_ADDR in every state. -/
def execWrDigest2 (_v : Word) (s : State) : Result := .next (raise .badAddr s)

/-- WR DIGEST3 (spec/42_context.md R187): read-only, BAD_ADDR in every state. -/
def execWrDigest3 (_v : Word) (s : State) : Result := .next (raise .badAddr s)

/-- WR DIGEST4 (spec/42_context.md R187): read-only, BAD_ADDR in every state. -/
def execWrDigest4 (_v : Word) (s : State) : Result := .next (raise .badAddr s)

/-- WR of the reserved IDX9 (spec/42_context.md R198): BAD_ADDR in every state. -/
def execWrReserved9 (_v : Word) (s : State) : Result := .next (raise .badAddr s)

/-- WR of the reserved IDX10, IDX11 (spec/42_context.md R198): BAD_ADDR in every state. -/
def execWrReserved10to11 (_i : BitVec 1) (_v : Word) (s : State) : Result := .next (raise .badAddr s)

/-- WR of the reserved IDX12 to IDX15 (spec/42_context.md R198): BAD_ADDR in every state. -/
def execWrReserved12to15 (_i : BitVec 2) (_v : Word) (s : State) : Result := .next (raise .badAddr s)

/-- WR of the reserved IDX24 to IDX31 (spec/42_context.md R198): BAD_ADDR in every state. -/
def execWrReserved24to31 (_i : BitVec 3) (_v : Word) (s : State) : Result := .next (raise .badAddr s)

/-- WR of the reserved IDX48 to IDX63 (spec/42_context.md R198): BAD_ADDR in every state. -/
def execWrReserved48to63 (_i : BitVec 4) (_v : Word) (s : State) : Result := .next (raise .badAddr s)

end Sys2Proof.Machine
end

