-- ==== Sys2Proof/Machine/Dispatch.lean ====
section
/-! DEFINITION. The meaning of every instruction, one arm each. -/

namespace Sys2Proof.Machine

def exec (i : Instr) (s : State) : Host.Outcome State Fault Refusal :=
  match i with
  | .nop => Sys2Proof.Machine.execNop s
  | .updateNb0to3 nb => Sys2Proof.Machine.execUpdateNb0to3 nb s
  | .updateNb4 => Sys2Proof.Machine.execUpdateNb4 s
  | .finalize => Sys2Proof.Machine.execFinalize s
  | .finalizeReset => Sys2Proof.Machine.execFinalizeReset s
  | .reset => Sys2Proof.Machine.execReset s
  | .clearErr => Sys2Proof.Machine.execClearErr s
  | .badCmd w => Sys2Proof.Machine.execBadCmd w s
  | .rdInfo => Sys2Proof.Machine.execRdInfo s
  | .rdCmd => Sys2Proof.Machine.execRdCmd s
  | .rdData => Sys2Proof.Machine.execRdData s
  | .rdStatus => Sys2Proof.Machine.execRdStatus s
  | .rdDigest0 => Sys2Proof.Machine.execRdDigest0 s
  | .rdDigest1 => Sys2Proof.Machine.execRdDigest1 s
  | .rdDigest2 => Sys2Proof.Machine.execRdDigest2 s
  | .rdDigest3 => Sys2Proof.Machine.execRdDigest3 s
  | .rdDigest4 => Sys2Proof.Machine.execRdDigest4 s
  | .rdH0 => Sys2Proof.Machine.execRdH0 s
  | .rdH1 => Sys2Proof.Machine.execRdH1 s
  | .rdH2 => Sys2Proof.Machine.execRdH2 s
  | .rdH3 => Sys2Proof.Machine.execRdH3 s
  | .rdH4 => Sys2Proof.Machine.execRdH4 s
  | .rdLenLo => Sys2Proof.Machine.execRdLenLo s
  | .rdLenHi => Sys2Proof.Machine.execRdLenHi s
  | .rdBuflen => Sys2Proof.Machine.execRdBuflen s
  | .rdBuf n => Sys2Proof.Machine.execRdBuf n s
  | .rdReserved9 => Sys2Proof.Machine.execRdReserved9 s
  | .rdReserved10to11 k => Sys2Proof.Machine.execRdReserved10to11 k s
  | .rdReserved12to15 k => Sys2Proof.Machine.execRdReserved12to15 k s
  | .rdReserved24to31 k => Sys2Proof.Machine.execRdReserved24to31 k s
  | .rdReserved48to63 k => Sys2Proof.Machine.execRdReserved48to63 k s
  | .wrInfo v => Sys2Proof.Machine.execWrInfo v s
  | .wrCmd v => Sys2Proof.Machine.execWrCmd v s
  | .wrData v => Sys2Proof.Machine.execWrData v s
  | .wrStatus v => Sys2Proof.Machine.execWrStatus v s
  | .wrDigest0 v => Sys2Proof.Machine.execWrDigest0 v s
  | .wrDigest1 v => Sys2Proof.Machine.execWrDigest1 v s
  | .wrDigest2 v => Sys2Proof.Machine.execWrDigest2 v s
  | .wrDigest3 v => Sys2Proof.Machine.execWrDigest3 v s
  | .wrDigest4 v => Sys2Proof.Machine.execWrDigest4 v s
  | .wrH0 v => Sys2Proof.Machine.execWrH0 v s
  | .wrH1 v => Sys2Proof.Machine.execWrH1 v s
  | .wrH2 v => Sys2Proof.Machine.execWrH2 v s
  | .wrH3 v => Sys2Proof.Machine.execWrH3 v s
  | .wrH4 v => Sys2Proof.Machine.execWrH4 v s
  | .wrLenLo v => Sys2Proof.Machine.execWrLenLo v s
  | .wrLenHi v => Sys2Proof.Machine.execWrLenHi v s
  | .wrBuflen v => Sys2Proof.Machine.execWrBuflen v s
  | .wrBuf n v => Sys2Proof.Machine.execWrBuf n v s
  | .wrReserved9 v => Sys2Proof.Machine.execWrReserved9 v s
  | .wrReserved10to11 k v => Sys2Proof.Machine.execWrReserved10to11 k v s
  | .wrReserved12to15 k v => Sys2Proof.Machine.execWrReserved12to15 k v s
  | .wrReserved24to31 k v => Sys2Proof.Machine.execWrReserved24to31 k v s
  | .wrReserved48to63 k v => Sys2Proof.Machine.execWrReserved48to63 k v s

end Sys2Proof.Machine
end

