-- ==== Sys2Proof/Machine/Engine.lean ====
section
/-! DEFINITION. The engine agent (spec/00_scope.md R16): its clock cycles, the last of which is the completion step, and when it is
its turn to move. -/

namespace Sys2Proof.Machine

/-- Is it the engine's turn? Only while a command is in flight, and then when the host items drawn for the wait have gone or the
host has nothing to do (spec/70_reset_and_hazards.md R295; log 3). -/
def State.engineTurn (s : State) : Bool :=
  s.busy && (s.engineWait == 0 || s.pending.isEmpty)

/-- The engine moves: one clock cycle of the compression unit. In the command's last cycle this is the completion step
(spec/40_update_reset.md R129, spec/41_finalize.md R161); before it only the hidden unit moves on, and the wait until the next
cycle is drawn anew (log 3). -/
def engineStep (s : State) : State :=
  let r := s.unit.clock Config.form
  if r.2 then complete { s with unit := r.1 }
  else
    { s with
      unit := r.1
      engineWait := Config.hostAccesses s.draws
      draws := s.draws + 1 }

end Sys2Proof.Machine
end

