-- ==== Sys2Proof/Machine/HostSide.lean ====
section
/-! DEFINITION. What the host and the reset pin do to the core beside plain accesses: taking the next item, an access while `rst_n`
is 0, the pin itself, and POLL. -/

namespace Sys2Proof.Machine

/-- A new step begins: no read has returned a value in it yet (log 6). -/
def beginStep (s : State) : State := { s with rdata := none }

/-- The item at the head of the host's sequence is taken, and with it one of the items that go before the engine's next cycle. -/
def takeItem (rest : List HostItem) (s : State) : State :=
  { s with pending := rest, engineWait := s.engineWait - 1 }

/-- An access while `rst_n = 0` (spec/70_reset_and_hazards.md R282): a read returns 0, a write has no effect and raises no error. -/
def ignoredAccess (c : Code) (s : State) : State :=
  match c with
  | .cmd _ => s
  | .bus op _ => if weField op then s else returnWord 0 s

/-- The pin `rst_n` takes a level (spec/70_reset_and_hazards.md R280): at 0, and on the edge that ends reset, every piece of state
takes its reset value. A level of 1 on a running core changes nothing. -/
def setRstN (level : Bool) (s : State) : State :=
  if level && s.rstN then s else { hardwareReset s with rstN := level }

/-- One `RD STATUS` of a `POLL` (spec/30_encoding.md R101): while bit 0 of the value read is 1 the host polls again. -/
def pollOnce (s : State) : State :=
  let v := if s.rstN then s.status else 0
  let t := returnWord v s
  if v.getLsbD 0 then { t with pending := .poll :: t.pending } else t

end Sys2Proof.Machine
end

