-- ==== Sys2Proof/Machine/Step.lean ====
section
/-! DEFINITION. One step of the machine: the engine's clock cycle or the host's next item (spec/00_scope.md R16). -/

namespace Sys2Proof.Machine

/-- The core takes the host's next item. With nothing to take it waits and keeps its state (spec/10_state.md R43,
spec/60_exceptions.md R266). -/
def hostStep (s : State) : Host.Outcome State Fault Refusal :=
  match s.pending with
  | [] => .next s
  | .access c :: rest =>
    if s.rstN then exec (decode c) (takeItem rest s) else .next (ignoredAccess c (takeItem rest s))
  | .poll :: rest => .next (pollOnce (takeItem rest s))
  | .rst level :: rest => .next (setRstN level (takeItem rest s))

/-- One step: the engine moves when it is its turn, else the host. -/
def step (s : State) : Host.Outcome State Fault Refusal :=
  if s.engineTurn then .next (engineStep (beginStep s)) else hostStep (beginStep s)

/-- `s` with an instruction as the host's next access, to be taken in the very next step: it is put at the head of the host's
sequence, the engine waits one item longer, and `rst_n` is 1 (log 2). Where the number lays out no encoding, `s` stays as it is. -/
def State.withFetchWord (s : State) (nbits w : Nat) : State :=
  match codeOfTableWord nbits w with
  | none => s
  | some c => { s with pending := .access c :: s.pending, engineWait := s.engineWait + 1, rstN := true }

end Sys2Proof.Machine
end

