-- ==== Sys2Proof/Machine/HostProgram.lean ====
section
/-! DEFINITION. The host's assembler (spec/30_encoding.md R100, R101): host programs are lists of host items, and the
pseudo-instructions are their expansions. -/

namespace Sys2Proof.Machine.Asm

/-- `RD <reg>` of the register at an index (spec/30_encoding.md R100). -/
def rd (idx : BitVec 6) : HostItem := .access (readCode idx)

/-- `WR <reg>, v` (spec/30_encoding.md R100). -/
def wr (idx : BitVec 6) (v : Word) : HostItem := .access (writeCode idx v)

/-- `CMD <op>`: the write of a command word to CMD (spec/30_encoding.md R100, R102). -/
def cmd (nb : BitVec 3) (op : BitVec 4) : HostItem := wr 1 (commandWord nb op)

/-- The DATA word of a beat, the first byte in [31:24] and missing lanes 0 (spec/30_encoding.md R101). -/
def packBeat (bytes : List Byte) : Word :=
  wordBe (bytes.getD 0 0) (bytes.getD 1 0) (bytes.getD 2 0) (bytes.getD 3 0)

/-- The command word of an UPDATE beat of `nb` bytes (spec/30_encoding.md R102). -/
def updateWord (nb : Nat) : Word := commandWord (BitVec.ofNat 3 nb) 0x1

/-- `UPD nb, v` (spec/30_encoding.md R101). -/
def upd (nb : Nat) (v : Word) : List HostItem := [wr 2 v, wr 1 (updateWord nb)]

/-- One beat of `UPDS`: `UPD`, then `POLL` (spec/30_encoding.md R101). -/
def updBeat (bytes : List Byte) : List HostItem := upd bytes.length (packBeat bytes) ++ [.poll]

/-- `UPDS "<bytes>"`: beats of 4, the last with the 1..3 bytes that remain (spec/30_encoding.md R101). -/
def upds : List Byte → List HostItem
  | [] => []
  | [b0] => updBeat [b0]
  | [b0, b1] => updBeat [b0, b1]
  | [b0, b1, b2] => updBeat [b0, b1, b2]
  | b0 :: b1 :: b2 :: b3 :: rest => updBeat [b0, b1, b2, b3] ++ upds rest

/-- `FIN` (spec/30_encoding.md R101). -/
def fin : List HostItem := [cmd 0 0x2, .poll]

/-- `FINR` (spec/30_encoding.md R101). -/
def finr : List HostItem := [cmd 0 0x3, .poll]

/-- `RDDIG` (spec/30_encoding.md R101). -/
def rddig : List HostItem := [rd 4, rd 5, rd 6, rd 7, rd 8]

/-- The indices of the context registers in the order of SAVECTX: H0..H4, LEN_LO, LEN_HI, BUFLEN, BUF0..BUF15
(spec/30_encoding.md R101). -/
def contextIndices : List (BitVec 6) :=
  [16, 17, 18, 19, 20, 21, 22, 23] ++ [32, 33, 34, 35, 36, 37, 38, 39] ++ [40, 41, 42, 43, 44, 45, 46, 47]

/-- `SAVECTX` (spec/30_encoding.md R101). -/
def saveCtx : List HostItem := .poll :: contextIndices.map rd

/-- `RESTORECTX` with the values a SAVECTX read, in its order (spec/30_encoding.md R101). -/
def restoreCtx (values : List Word) : List HostItem :=
  .poll :: (contextIndices.zip values).map fun p => wr p.1 p.2

end Sys2Proof.Machine.Asm
end

