-- ==== Sys2Proof/Machine/Reference.lean ====
section
/-! DEFINITION. The source's procedure on a whole message (spec/41_finalize.md R150, R154): what a digest of the core is compared
with. It pads the message as a list of bytes and knows no buffer, beat or block scheduler. -/

namespace Sys2Proof.Machine

/-- Steps 1 to 3 (spec/41_finalize.md R150): 0x80, then 0x00 until the length is 56 mod 64, then the 64-bit length. -/
def padMessage (m : List Byte) : List Byte :=
  m ++ [0x80] ++ List.replicate ((119 - m.length % 64) % 64) 0 ++ be64 (BitVec.ofNat 64 (8 * m.length))

/-- The first 64 bytes of a list as a block. -/
def blockOf (bytes : List Byte) : Buffer := putBytes (Vector.replicate 64 0) 0 (bytes.take 64)

/-- The first `n` blocks of a list of bytes. -/
def blocksOf : Nat → List Byte → List Buffer
  | 0, _ => []
  | n + 1, bytes => blockOf bytes :: blocksOf n (bytes.drop 64)

/-- The words of the digest of a message (spec/41_finalize.md R150, steps 4 and 5). -/
def sha1 (m : List Byte) : Hash :=
  compressAll iv (blocksOf ((padMessage m).length / 64) (padMessage m))

/-- The 20 bytes of a digest (spec/20_memory.md R69, spec/41_finalize.md R154). -/
def digestBytes (d : Hash) : List Byte := be32 d.h0 ++ be32 d.h1 ++ be32 d.h2 ++ be32 d.h3 ++ be32 d.h4

end Sys2Proof.Machine
end

