-- ==== Sys2Proof/Safety.lean ====
section
/-! DEFINITION. What counts as a safe run, and the terms the statements use: the invariant of the machine, the errors an access is
due, the two ways to feed a message, and when two cores are the same engine. -/

namespace Sys2Proof.Machine

/-! ## Outcomes -/

/-- The state an instruction leads to; every instruction leads to one. -/
def after (i : Instr) (s : State) : State :=
  match exec i s with
  | .next t => t
  | .fault _ => s
  | .refused _ => s

/-- No error was raised in the run so far: the record says so, not STATUS.ERR (spec/60_exceptions.md R268). -/
def State.clean (s : State) : Bool := s.faults.isEmpty

/-- No command is in flight and the phase is ABSORB: every command is accepted (spec/40_update_reset.md R120). -/
def Absorbing (s : State) : Prop := s.inflight = .none ∧ s.final = false

/-! ## Kinds of instructions -/

/-- The instruction that runs: a write to CMD runs the command its value names (spec/42_context.md R183). -/
def issued : Instr → Instr
  | .wrCmd v => (decodeCommand v).toInstr
  | i => i

/-- The UPDATE of `nb` bytes, in whichever of its two rows. -/
def IsUpdate (i : Instr) (nb : Nat) : Prop :=
  (∃ n : BitVec 2, i = .updateNb0to3 n ∧ nb = n.toNat) ∨ (i = .updateNb4 ∧ nb = 4)

/-- The reads of the context registers (spec/42_context.md R196). -/
def readsContext (i : Instr) : Prop :=
  i ∈ [.rdH0, .rdH1, .rdH2, .rdH3, .rdH4, .rdLenLo, .rdLenHi, .rdBuflen] ∨ ∃ n, i = .rdBuf n

/-- The reads of the digest registers. -/
def readsDigest (i : Instr) : Prop :=
  i ∈ [.rdDigest0, .rdDigest1, .rdDigest2, .rdDigest3, .rdDigest4]

/-- The reads of the reserved indices (spec/42_context.md R198). -/
def readsReserved (i : Instr) : Prop :=
  i = .rdReserved9 ∨ (∃ k, i = .rdReserved10to11 k) ∨ (∃ k, i = .rdReserved12to15 k) ∨
  (∃ k, i = .rdReserved24to31 k) ∨ (∃ k, i = .rdReserved48to63 k)

/-- The bus reads. -/
def isRead (i : Instr) : Prop :=
  i ∈ [.rdInfo, .rdCmd, .rdData, .rdStatus] ∨ readsDigest i ∨ readsContext i ∨ readsReserved i

/-- A read whose value rule R196 of spec/42_context.md leaves open in this state. -/
def readIsUnspec (i : Instr) (s : State) : Prop :=
  (readsContext i ∧ s.inflight ≠ .none) ∨ (readsDigest i ∧ (s.inflight = .fin ∨ s.inflight = .finr))

/-- The writes of read-only registers and reserved indices (spec/42_context.md R187, R198). -/
def writesBadAddress : Instr → Bool
  | .wrInfo _ | .wrStatus _ | .wrDigest0 _ | .wrDigest1 _ | .wrDigest2 _ | .wrDigest3 _ | .wrDigest4 _ => true
  | .wrReserved9 _ | .wrReserved10to11 _ _ | .wrReserved12to15 _ _ | .wrReserved24to31 _ _
  | .wrReserved48to63 _ _ => true
  | _ => false

/-- The writes of context registers (spec/60_exceptions.md R253). -/
def writesContext : Instr → Bool
  | .wrH0 _ | .wrH1 _ | .wrH2 _ | .wrH3 _ | .wrH4 _ | .wrLenLo _ | .wrLenHi _ | .wrBuflen _ | .wrBuf _ _ => true
  | _ => false

/-- UPDATE, FINALIZE and FINALIZE_RESET, the commands the FINAL phase refuses (spec/60_exceptions.md R253). -/
def refusedAfterFinal : Instr → Bool
  | .updateNb0to3 _ | .updateNb4 | .finalize | .finalizeReset => true
  | _ => false

/-! ## The errors an access is due -/

/-- The form error of an instruction, the first cause of spec/60_exceptions.md R254: BAD_ADDR, BAD_CMD or BAD_VALUE by R253. -/
def formError (i : Instr) : Option ErrCode :=
  if writesBadAddress i then some .badAddr
  else match i with
    | .badCmd _ => some .badCmd
    | .wrBuflen v => if v.toNat < 64 then none else some .badValue
    | _ => none

/-- The one error an access raises in a state, by the causes of spec/60_exceptions.md R253 in the priority of R254: form, then BUSY,
then AFTER_FINAL. -/
def expectedError (i : Instr) (s : State) : Option ErrCode :=
  match formError (issued i) with
  | some c => some c
  | none =>
    if s.inflight ≠ .none ∧ (writesContext i ∨ refusedAfterFinal (issued i) ∨ issued i = .reset) then some .busy
    else if s.final = true ∧ refusedAfterFinal (issued i) then some .afterFinal
    else none

/-! ## The invariant -/

/-- What holds in every state of a run from reset, and in every state a step leads to from such a state (spec/10_state.md R48 and the
rules beside each field). -/
structure Inv (s : State) : Prop where
  /-- R48: if ERR = 0 then ERRCODE = 0. -/
  errClear : s.err = false → s.errcode = 0
  /-- spec/60_exceptions.md R251: with ERR = 1 the code is one of 1..5; 6..15 are never produced. -/
  errSet : s.err = true → 1 ≤ s.errcode.toNat ∧ s.errcode.toNat ≤ 5
  /-- spec/60_exceptions.md R268: an error that STATUS shows stands in the record. -/
  errRecorded : s.err = true → s.faults ≠ []
  /-- spec/40_update_reset.md R120: an UPDATE runs in the ABSORB phase only. -/
  updInAbsorb : s.inflight = .upd → s.final = false
  /-- spec/41_finalize.md R155: while a FINALIZE is in flight, FINAL = 1 and DVALID = 0. -/
  finPhase : s.inflight = .fin → s.final = true ∧ s.dvalid = false
  /-- spec/41_finalize.md R157: while a FINALIZE_RESET is in flight, FINAL = 0 and DVALID = 0. -/
  finrPhase : s.inflight = .finr → s.final = false ∧ s.dvalid = false
  /-- R48: when nothing is in flight, FINAL = 1 means DVALID = 1. -/
  finalValid : s.inflight = .none → s.final = true → s.dvalid = true
  /-- The H that the registers hold is the one the unit will have computed. That registers and unit hold it twice is the model's
  (DEDUCED, log 10). -/
  unitGivesState : s.inflight = .upd ∨ s.inflight = .fin → s.unit.result = s.h
  /-- So is the digest (DEDUCED, log 10). -/
  unitGivesDigest : s.inflight = .fin ∨ s.inflight = .finr → s.unit.result = s.digest
  /-- spec/70_reset_and_hazards.md R280: while rst_n = 0 the core holds its reset values. The unit's contents are left out: the spec
  leaves them unspecified after reset (spec/10_state.md R47, spec/43_compression.md R227). -/
  heldInReset : s.rstN = false → { hardwareReset s with unit := s.unit } = s

/-! ## Feeding a message -/

/-- One beat of 0..4 bytes, as `UPDS` sends it (spec/30_encoding.md R101): DATA, the UPDATE, and the completion of whatever it
started. -/
def feedBeat (s : State) (bytes : List Byte) : State :=
  complete (after (.wrCmd (Asm.updateWord bytes.length)) (after (.wrData (Asm.packBeat bytes)) s))

/-- Beats one after another. -/
def feed (s : State) (beats : List (List Byte)) : State := beats.foldl feedBeat s

/-- Every beat has 0..4 bytes (spec/00_scope.md R9, `MAX_BEAT_BYTES`). -/
def BeatsFit (beats : List (List Byte)) : Prop := ∀ b ∈ beats, b.length ≤ 4

/-! ## The same engine -/

/-- Two cores whose later digests must agree: the context without the stale bytes, the phase, what is in flight, and the operand
DATA (spec/41_finalize.md R162, spec/42_context.md R199). -/
structure SameEngine (s t : State) : Prop where
  h : s.h = t.h
  len : s.len = t.len
  buflen : s.buflen = t.buflen
  message : ∀ j < s.buflen.toNat, byteAt s.buf j = byteAt t.buf j
  final : s.final = t.final
  inflight : s.inflight = t.inflight
  data : s.data = t.data

/-- What can happen to a core between two looks at it: an instruction, or the completion step. -/
inductive Event
  | instr (i : Instr)
  | completion
deriving DecidableEq, Repr

/-- The state after an event. -/
def afterEvent (s : State) : Event → State
  | .instr i => after i s
  | .completion => complete s

/-- The state after a sequence of events. -/
def afterEvents (s : State) (es : List Event) : State := es.foldl afterEvent s

/-- No event writes BUFLEN: that write alone can make stale bytes part of the message (spec/42_context.md R194). -/
def NoBuflenWrite (es : List Event) : Prop := ∀ v, Event.instr (.wrBuflen v) ∉ es

/-- The values a `SAVECTX` reads (spec/30_encoding.md R101). -/
def savedContext (s : State) : List Word :=
  Asm.contextIndices.map fun idx => ((after (decodeRead idx) s).rdata).getD 0

/-- The writes of a `RESTORECTX` (spec/30_encoding.md R101). -/
def restoreContext (s : State) (values : List Word) : State :=
  (Asm.contextIndices.zip values).foldl (fun s p => after (decodeWrite p.1 p.2) s) s

/-- Two states that differ in nothing but the data the compression unit holds: its counters and the number of waiting blocks are
the same (spec/43_compression.md R227). -/
def AgreeButUnitData (s t : State) : Prop :=
  { s with unit := t.unit } = t ∧ s.unit.overhead = t.unit.overhead ∧ s.unit.cycle = t.unit.cycle ∧
  s.unit.next.length = t.unit.next.length

/-- `n` clock cycles of a compression unit. -/
def CompUnit.clocks (p : Config.Form) : Nat → CompUnit → CompUnit
  | 0, u => u
  | n + 1, u => CompUnit.clocks p n (u.clock p).1

/-- Lane `k` of DATA, k = 0 the most significant (spec/20_memory.md R67). -/
def lane (v : Word) (k : Nat) : Byte := v.extractLsb' (24 - 8 * k) 8

/-- Byte `j` of the bit-length field of a block, for j = 56..63 (spec/41_finalize.md R151). -/
def lengthByte (len : BitVec 64) (j : Nat) : Byte := (len <<< 3).extractLsb' (8 * (63 - j)) 8

end Sys2Proof.Machine
end

