-- ==== Sys2Proof/Certificates/Slice0/Obligations.lean ====
section
/-! DEFINITION. The statements for the provers, from the numbered rules of spec/. Each holds in every state that meets its
hypotheses, reached or not. -/

open Sys2Proof Sys2Proof.Machine

/-! ## Encoding and decoding -/

/-- spec/30_encoding.md R102: the canonical command words, each decoding to its command. -/
def Obligations.CanonicalWordsDecode : Prop :=
  decode (.cmd 0x00000000) = .nop ∧ decode (.cmd 0x00000001) = .updateNb0to3 0 ∧
  decode (.cmd 0x00000011) = .updateNb0to3 1 ∧ decode (.cmd 0x00000021) = .updateNb0to3 2 ∧
  decode (.cmd 0x00000031) = .updateNb0to3 3 ∧ decode (.cmd 0x00000041) = .updateNb4 ∧
  decode (.cmd 0x00000002) = .finalize ∧ decode (.cmd 0x00000003) = .finalizeReset ∧
  decode (.cmd 0x00000004) = .reset ∧ decode (.cmd 0x00000005) = .clearErr

/-- spec/20_memory.md R61, one bus operation of each group written out: `WE` in bit 6, the index in bits [5:0]. -/
def Obligations.BusOperationsDecodeByTheMap : Prop :=
  decode (.bus 0b0000000 0) = .rdInfo ∧ decode (.bus 0b0000011 0) = .rdStatus ∧
  decode (.bus 0b0001000 0) = .rdDigest4 ∧ decode (.bus 0b0001011 0) = .rdReserved10to11 1 ∧
  decode (.bus 0b0010011 0) = .rdH3 ∧ decode (.bus 0b0010110 0) = .rdLenHi ∧
  decode (.bus 0b0101101 0) = .rdBuf 13 ∧ decode (.bus 0b0111111 0) = .rdReserved48to63 15 ∧
  decode (.bus 0b1000001 0x00000002) = .wrCmd 2 ∧ decode (.bus 0b1000010 0x61626364) = .wrData 0x61626364 ∧
  decode (.bus 0b1010000 7) = .wrH0 7 ∧ decode (.bus 0b1010111 0x3F) = .wrBuflen 0x3F ∧
  decode (.bus 0b1101111 5) = .wrBuf 15 5 ∧ decode (.bus 0b1000011 1) = .wrStatus 1 ∧
  decode (.bus 0b1011001 0) = .wrReserved24to31 1 0

/-- Decoding the encoding of a well-formed instruction gives it back, for every instruction and every operand. -/
def Obligations.DecodeOfEncodeIsTheInstruction : Prop :=
  ∀ i : Instr, i.wellFormed = true → decode (encode i) = i

/-- Encoding what an encoding decodes to gives its bits back: no bit of a command word and no bit of a bus operation is dropped; a
read carries no value. -/
def Obligations.EncodeOfDecodeIsTheWord : Prop :=
  (∀ v : Word, encode (decode (.cmd v)) = .cmd v) ∧
  (∀ (op : BitVec 7) (v : Word), encode (decode (.bus op v)) = .bus op (if op.getLsbD 6 then v else 0))

/-- spec/30_encoding.md R96: of the 2^32 words exactly ten decode to a command, and every other word to BAD_CMD. -/
def Obligations.ExactlyTenWordsAreCommands : Prop :=
  ∀ v : Word, decodeCommand v =
    if v = 0x00 then .nop
    else if v = 0x01 then .updateNb0to3 0
    else if v = 0x11 then .updateNb0to3 1
    else if v = 0x21 then .updateNb0to3 2
    else if v = 0x31 then .updateNb0to3 3
    else if v = 0x41 then .updateNb4
    else if v = 0x02 then .finalize
    else if v = 0x03 then .finalizeReset
    else if v = 0x04 then .reset
    else if v = 0x05 then .clearErr
    else .badCmd v

/-- spec/30_encoding.md R97: every bus operation decodes and completes; the writes that raise BAD_ADDR are exactly those at
IDX 0, 3..15, 24..31 and 48..63, and no read raises anything. -/
def Obligations.IllegalBusWritesAreTheBadAddresses : Prop :=
  ∀ (op : BitVec 7) (v : Word) (s : State),
    ∃ t, exec (decode (.bus op v)) s = .next t ∧
      (op.getLsbD 6 = false → t.faults = s.faults ∧ t.err = s.err ∧ t.errcode = s.errcode) ∧
      (op.getLsbD 6 = true →
        let idx := (op.extractLsb' 0 6).toNat
        (t.faults = s.faults ++ [.badAddr] ↔
          idx = 0 ∨ (3 ≤ idx ∧ idx ≤ 15) ∨ (24 ≤ idx ∧ idx ≤ 31) ∨ 48 ≤ idx))

/-! ## The step -/

/-- When the host's next item is an access, it is the host's turn and `rst_n` is 1, the step runs the decoded instruction; around it
the access is taken from the sequence, and the read data of an earlier step is gone. -/
def Obligations.StepRunsTheDecodedAccess : Prop :=
  ∀ (s : State) (c : Code) (rest : List HostItem),
    s.pending = .access c :: rest → s.engineTurn = false → s.rstN = true →
    step s = exec (decode c) { s with rdata := none, pending := rest, engineWait := s.engineWait - 1 }

/-- What `withFetchWord` places is run by the very next step, whoever's turn it was. -/
def Obligations.FetchedWordRunsNext : Prop :=
  ∀ (s : State) (nbits w : Nat) (i : Instr), decodeTableWord nbits w = some i →
    step (s.withFetchWord nbits w) = exec i { s with rdata := none, rstN := true }

/-- spec/60_exceptions.md R255 (the core never stops): every step of every state leads to a next state, and so does every
instruction. -/
def Obligations.NoStepStops : Prop :=
  (∀ s : State, ∃ t, step s = .next t) ∧ (∀ (i : Instr) (s : State), ∃ t, exec i s = .next t)

/-- spec/42_context.md R183: a write to CMD completes, and runs the instruction that its value decodes to. -/
def Obligations.CmdWriteRunsTheCommand : Prop :=
  ∀ (v : Word) (s : State), ∃ t,
    exec (.wrCmd v) s = .next t ∧ exec (decode (.cmd v)) s = .next t

/-! ## Reads -/

/-- spec/42_context.md R181, R182 and the reads of R198: INFO reads 0x00004014, CMD and every reserved index read 0, in every
state, with no error. -/
def Obligations.ConstantReads : Prop :=
  ∀ s : State,
    exec .rdInfo s = .next { s with rdata := some 0x00004014 } ∧
    exec .rdCmd s = .next { s with rdata := some 0 } ∧
    exec .rdReserved9 s = .next { s with rdata := some 0 } ∧
    (∀ k, exec (.rdReserved10to11 k) s = .next { s with rdata := some 0 }) ∧
    (∀ k, exec (.rdReserved12to15 k) s = .next { s with rdata := some 0 }) ∧
    (∀ k, exec (.rdReserved24to31 k) s = .next { s with rdata := some 0 }) ∧
    (∀ k, exec (.rdReserved48to63 k) s = .next { s with rdata := some 0 })

/-- spec/42_context.md R184, R186: DATA and STATUS read in every state, STATUS field by field. -/
def Obligations.DataAndStatusReads : Prop :=
  ∀ s : State,
    exec .rdData s = .next { s with rdata := some s.data } ∧
    ∃ v : Word, exec .rdStatus s = .next { s with rdata := some v } ∧
      (v.getLsbD 0 = true ↔ s.inflight ≠ .none) ∧ v.getLsbD 1 = s.dvalid ∧ v.getLsbD 2 = s.final ∧
      v.getLsbD 3 = s.err ∧ v.extractLsb' 4 4 = s.errcode ∧ v.extractLsb' 8 24 = 0

/-- spec/42_context.md R188: DIGESTn reads its value unless a finalize is in flight. -/
def Obligations.DigestReads : Prop :=
  ∀ s : State, s.inflight = .none ∨ s.inflight = .upd →
    exec .rdDigest0 s = .next { s with rdata := some s.digest.h0 } ∧
    exec .rdDigest1 s = .next { s with rdata := some s.digest.h1 } ∧
    exec .rdDigest2 s = .next { s with rdata := some s.digest.h2 } ∧
    exec .rdDigest3 s = .next { s with rdata := some s.digest.h3 } ∧
    exec .rdDigest4 s = .next { s with rdata := some s.digest.h4 }

/-- spec/42_context.md R189, R191, R193: with nothing in flight Hn, LEN_LO, LEN_HI and BUFLEN read their values, BUFLEN with bits
[31:6] zero. -/
def Obligations.ContextReads : Prop :=
  ∀ s : State, s.inflight = .none →
    exec .rdH0 s = .next { s with rdata := some s.h.h0 } ∧
    exec .rdH1 s = .next { s with rdata := some s.h.h1 } ∧
    exec .rdH2 s = .next { s with rdata := some s.h.h2 } ∧
    exec .rdH3 s = .next { s with rdata := some s.h.h3 } ∧
    exec .rdH4 s = .next { s with rdata := some s.h.h4 } ∧
    exec .rdLenLo s = .next { s with rdata := some (s.len.extractLsb' 0 32) } ∧
    exec .rdLenHi s = .next { s with rdata := some (s.len.extractLsb' 32 32) } ∧
    exec .rdBuflen s = .next { s with rdata := some (s.buflen.setWidth 32) }

/-- spec/42_context.md R195, spec/20_memory.md R68: with nothing in flight BUFn reads buf[4n] in [31:24] down to buf[4n+3] in [7:0],
stale bytes as stored. -/
def Obligations.BufferWordReads : Prop :=
  ∀ (s : State) (n : BitVec 4), s.inflight = .none →
    ∃ v : Word, exec (.rdBuf n) s = .next { s with rdata := some v } ∧
      v.extractLsb' 24 8 = byteAt s.buf (4 * n.toNat) ∧ v.extractLsb' 16 8 = byteAt s.buf (4 * n.toNat + 1) ∧
      v.extractLsb' 8 8 = byteAt s.buf (4 * n.toNat + 2) ∧ v.extractLsb' 0 8 = byteAt s.buf (4 * n.toNat + 3)

/-- spec/42_context.md R196: reads of context registers while a command is in flight, and of DIGEST while a finalize is, return a
fresh free value each; reads of every other register never do. It holds whatever the free values are. -/
def Obligations.ReadsInFlightAreFreshDraws : Prop :=
  ∀ (i : Instr) (s : State), isRead i →
    (readIsUnspec i s →
      exec i s = .next { s with rdata := some (Config.unspecRead s.draws), draws := s.draws + 1 }) ∧
    (¬ readIsUnspec i s → ∃ v, exec i s = .next { s with rdata := some v })

/-- spec/20_memory.md R64: a read changes no register and no STATUS field and is idempotent; two reads of one register with nothing
but reads between them return equal values, except where R196 leaves the value open; a reserved index reads 0. -/
def Obligations.ReadsHaveNoSideEffects : Prop :=
  ∀ (i : Instr) (s : State), isRead i →
    (∃ t, exec i s = .next t ∧ { t with rdata := s.rdata, draws := s.draws } = s) ∧
    (¬ readIsUnspec i s → ∃ v, ∀ (r : Option Word) (d : Nat),
      exec i { s with rdata := r, draws := d } = .next { s with rdata := some v, draws := d }) ∧
    (readsReserved i → exec i s = .next { s with rdata := some 0 })

/-! ## Writes -/

/-- spec/42_context.md R185: WR DATA is accepted in every state and changes DATA alone. -/
def Obligations.DataWrite : Prop :=
  ∀ (s : State) (v : Word), exec (.wrData v) s = .next { s with data := v }

/-- spec/42_context.md R190: WR Hn writes one word when nothing is in flight, else it raises BUSY. -/
def Obligations.HashWordWrites : Prop :=
  ∀ (s : State) (v : Word),
    (s.inflight = .none →
      exec (.wrH0 v) s = .next { s with h := ⟨v, s.h.h1, s.h.h2, s.h.h3, s.h.h4⟩ } ∧
      exec (.wrH1 v) s = .next { s with h := ⟨s.h.h0, v, s.h.h2, s.h.h3, s.h.h4⟩ } ∧
      exec (.wrH2 v) s = .next { s with h := ⟨s.h.h0, s.h.h1, v, s.h.h3, s.h.h4⟩ } ∧
      exec (.wrH3 v) s = .next { s with h := ⟨s.h.h0, s.h.h1, s.h.h2, v, s.h.h4⟩ } ∧
      exec (.wrH4 v) s = .next { s with h := ⟨s.h.h0, s.h.h1, s.h.h2, s.h.h3, v⟩ }) ∧
    (s.inflight ≠ .none → ∀ i ∈ [Instr.wrH0 v, .wrH1 v, .wrH2 v, .wrH3 v, .wrH4 v],
      exec i s = .next (raise .busy s))

/-- spec/42_context.md R192: WR LEN_LO and WR LEN_HI each write one half of LEN and leave the other, or raise BUSY. -/
def Obligations.LengthWrites : Prop :=
  ∀ (s : State) (v : Word),
    (s.inflight = .none →
      (∃ len : BitVec 64, exec (.wrLenLo v) s = .next { s with len := len } ∧
        len.extractLsb' 0 32 = v ∧ len.extractLsb' 32 32 = s.len.extractLsb' 32 32) ∧
      (∃ len : BitVec 64, exec (.wrLenHi v) s = .next { s with len := len } ∧
        len.extractLsb' 32 32 = v ∧ len.extractLsb' 0 32 = s.len.extractLsb' 0 32)) ∧
    (s.inflight ≠ .none →
      exec (.wrLenLo v) s = .next (raise .busy s) ∧ exec (.wrLenHi v) s = .next (raise .busy s))

/-- spec/42_context.md R194: WR BUFLEN raises BAD_VALUE for a value of 64 or more in every state, else BUSY while a command is in
flight, else it writes BUFLEN and nothing more. -/
def Obligations.BuflenWrite : Prop :=
  ∀ (s : State) (v : Word),
    (64 ≤ v.toNat → exec (.wrBuflen v) s = .next (raise .badValue s)) ∧
    (v.toNat < 64 → s.inflight ≠ .none → exec (.wrBuflen v) s = .next (raise .busy s)) ∧
    (v.toNat < 64 → s.inflight = .none →
      exec (.wrBuflen v) s = .next { s with buflen := BitVec.ofNat 6 v.toNat })

/-- spec/42_context.md R197: WR BUFn writes four bytes of the buffer, most significant lane first, and no other byte; while a command
is in flight it raises BUSY. -/
def Obligations.BufferWordWrite : Prop :=
  ∀ (s : State) (n : BitVec 4) (v : Word),
    (s.inflight = .none → ∃ buf : Buffer, exec (.wrBuf n v) s = .next { s with buf := buf } ∧
      ∀ j < 64, byteAt buf j =
        if j / 4 = n.toNat then lane v (j % 4) else byteAt s.buf j) ∧
    (s.inflight ≠ .none → exec (.wrBuf n v) s = .next (raise .busy s))

/-- spec/42_context.md R187 and the writes of R198: a write of a read-only register or of a reserved index raises BAD_ADDR in every
state and changes nothing but ERR and ERRCODE (and the model's record). -/
def Obligations.BadAddressWrites : Prop :=
  ∀ (i : Instr) (s : State), writesBadAddress i = true →
    exec i s = .next { s with
      err := true
      errcode := if s.err then s.errcode else 5
      faults := s.faults ++ [.badAddr] }

/-! ## Errors -/

/-- spec/60_exceptions.md R252, R253, R254: every instruction, in every state, raises the one error it is due and changes nothing but
ERR, ERRCODE (kept from the first error) and the record; an instruction that is due none raises none. -/
def Obligations.EveryAccessRaisesTheErrorItIsDue : Prop :=
  ∀ (i : Instr) (s : State),
    match expectedError i s with
    | some c => exec i s = .next { s with
        err := true
        errcode := if s.err then s.errcode else c.code
        faults := s.faults ++ [c] }
    | none => ∃ t, exec i s = .next t ∧ t.faults = s.faults ∧
        (issued i ≠ .clearErr → t.err = s.err ∧ t.errcode = s.errcode)

/-- spec/30_encoding.md R93, R94, R95: a word with OP in 6..15, or with any of bits [31:7] set, or with NB 5..7 on UPDATE, or with NB
not 0 on any other operation, raises BAD_CMD in every state and changes nothing else (`raise`). -/
def Obligations.ReservedCommandWordsRaiseBadCmd : Prop :=
  ∀ (w : Word) (s : State),
    let op := (w.extractLsb' 0 4).toNat
    let nb := (w.extractLsb' 4 3).toNat
    6 ≤ op ∨ w.extractLsb' 7 25 ≠ 0 ∨ (op = 1 ∧ 5 ≤ nb) ∨ (op ≠ 1 ∧ nb ≠ 0) →
    exec (.wrCmd w) s = .next (raise .badCmd s) ∧ exec (.badCmd w) s = .next (raise .badCmd s)

/-- spec/60_exceptions.md R257, the return from an error: CLEAR_ERR sets ERR and ERRCODE to 0; no other instruction, by either way of
issuing it, clears ERR or changes a set ERRCODE, a further error included, and the engine does not; hardware reset clears both. -/
def Obligations.OnlyClearErrClearsTheError : Prop :=
  (∀ (i : Instr) (s : State), issued i = .clearErr →
    ∃ t, exec i s = .next t ∧ t.err = false ∧ t.errcode = 0) ∧
  (∀ (i : Instr) (s t : State), exec i s = .next t → s.err = true → issued i ≠ .clearErr →
    t.err = true ∧ t.errcode = s.errcode) ∧
  (∀ s : State, (engineStep s).err = s.err ∧ (engineStep s).errcode = s.errcode) ∧
  (∀ s : State, (hardwareReset s).err = false ∧ (hardwareReset s).errcode = 0)

/-- spec/60_exceptions.md R268: the record of raises is never shortened or rewritten, by no instruction, CLEAR_ERR included, and by
no step. -/
def Obligations.TheFaultRecordOnlyGrows : Prop :=
  (∀ (i : Instr) (s t : State), exec i s = .next t → s.faults <+: t.faults) ∧
  (∀ s t : State, step s = .next t → s.faults <+: t.faults)

/-! ## Who writes what -/

/-- spec/10_state.md R39: an accepted FINALIZE sets FINAL; RESET and hardware reset clear it; no other instruction changes it and the
engine does not; while FINAL = 1 with nothing in flight UPDATE, FINALIZE and FINALIZE_RESET raise AFTER_FINAL. -/
def Obligations.ThePhaseBit : Prop :=
  (∀ (i : Instr) (s : State), issued i = .finalize → Absorbing s → ∃ t, exec i s = .next t ∧ t.final = true) ∧
  (∀ (i : Instr) (s : State), issued i = .reset → s.inflight = .none → ∃ t, exec i s = .next t ∧ t.final = false) ∧
  (∀ (i : Instr) (s t : State), exec i s = .next t → t.final ≠ s.final →
    (issued i = .finalize ∧ t.final = true) ∨ (issued i = .reset ∧ t.final = false)) ∧
  (∀ s : State, (engineStep s).final = s.final) ∧
  (∀ s : State, (hardwareReset s).final = false) ∧
  (∀ (i : Instr) (s : State), s.final = true → s.inflight = .none → refusedAfterFinal (issued i) = true →
    exec i s = .next (raise .afterFinal s))

/-- spec/41_finalize.md R159, and what R158 says no instruction does: DVALID goes to 0 when a finalize is accepted and to 1 at its
completion, hardware reset clears it, and nothing else changes it; no instruction but an accepted finalize changes DIGEST, and the
engine never does. -/
def Obligations.DigestAndItsValidity : Prop :=
  (∀ (i : Instr) (s : State), issued i = .finalize ∨ issued i = .finalizeReset → Absorbing s →
    ∃ t, exec i s = .next t ∧ t.dvalid = false) ∧
  (∀ (i : Instr) (s t : State), exec i s = .next t → t.digest ≠ s.digest ∨ t.dvalid ≠ s.dvalid →
    (issued i = .finalize ∨ issued i = .finalizeReset) ∧ Absorbing s) ∧
  (∀ s : State, (engineStep s).digest = s.digest ∧
    (s.inflight = .fin ∨ s.inflight = .finr → (engineStep s).inflight = .none → (engineStep s).dvalid = true) ∧
    ((engineStep s).dvalid ≠ s.dvalid →
      (s.inflight = .fin ∨ s.inflight = .finr) ∧ (engineStep s).inflight = .none)) ∧
  (∀ s : State, (hardwareReset s).dvalid = false)

/-- spec/10_state.md R37: no command and no access but WR DATA changes DATA, and the engine does not. -/
def Obligations.OnlyWrDataChangesData : Prop :=
  (∀ (i : Instr) (s t : State), exec i s = .next t → (∀ v, i ≠ .wrData v) → t.data = s.data) ∧
  (∀ s : State, (engineStep s).data = s.data)

/-- spec/10_state.md R31: an instruction changes H only with nothing in flight, and then in one of four ways: RESET and FINALIZE_RESET
write the IV; UPDATE and FINALIZE replace all five words by compressions of whole blocks; a write of Hn sets one word. The engine
never changes H. -/
def Obligations.WhatWritesTheHashState : Prop :=
  (∀ (i : Instr) (s t : State), exec i s = .next t → t.h ≠ s.h → s.inflight = .none ∧
    ((issued i = .reset ∨ issued i = .finalizeReset) ∧ t.h = iv ∨
     ((∃ nb, IsUpdate (issued i) nb) ∨ issued i = .finalize) ∧ (∃ blocks, blocks ≠ [] ∧ t.h = blocks.foldl compress s.h) ∨
     (∃ v, i = .wrH0 v ∧ t.h = { s.h with h0 := v } ∨ i = .wrH1 v ∧ t.h = { s.h with h1 := v } ∨
      i = .wrH2 v ∧ t.h = { s.h with h2 := v } ∨ i = .wrH3 v ∧ t.h = { s.h with h3 := v } ∨
      i = .wrH4 v ∧ t.h = { s.h with h4 := v }))) ∧
  (∀ s : State, (engineStep s).h = s.h)

/-- spec/41_finalize.md R164: commands alone keep LEN mod 64 = BUFLEN in the ABSORB phase. Every instruction that writes no context
register keeps it, the engine and hardware reset too, and it holds at reset. -/
def Obligations.LengthAndFillAgree : Prop :=
  let agree := fun s : State => s.final = false → s.len.toNat % 64 = s.buflen.toNat
  agree State.reset ∧
  (∀ (i : Instr) (s t : State), writesContext i = false → exec i s = .next t → agree s → agree t) ∧
  (∀ s : State, agree s → agree (engineStep s)) ∧ (∀ s : State, agree (hardwareReset s))

/-- spec/10_state.md R42, spec/40_update_reset.md R120: no instruction touches a command in flight. While INFLIGHT is not NONE every
instruction leaves INFLIGHT, the unit, H, LEN, BUFLEN, the buffer and DIGEST as they are. -/
def Obligations.ACommandInFlightIsNotDisturbed : Prop :=
  ∀ (i : Instr) (s : State), s.inflight ≠ .none →
    ∃ t, exec i s = .next t ∧ t.inflight = s.inflight ∧ t.unit = s.unit ∧ t.h = s.h ∧ t.len = s.len ∧
      t.buflen = s.buflen ∧ t.buf = s.buf ∧ t.digest = s.digest ∧ t.final = s.final ∧ t.dvalid = s.dvalid

/-! ## Commands -/

/-- spec/40_update_reset.md R121: NOP changes no state, in every state. -/
def Obligations.NopChangesNothing : Prop := ∀ s : State, exec .nop s = .next s

/-- spec/40_update_reset.md R132: CLEAR_ERR sets ERR and ERRCODE to 0 in every state and changes nothing else; a word with OP = 5 and
any other bit set is not CLEAR_ERR and raises BAD_CMD. -/
def Obligations.ClearErrEffect : Prop :=
  (∀ s : State, exec .clearErr s = .next { s with err := false, errcode := 0 }) ∧
  (∀ s : State, exec (.wrCmd 0x00000005) s = .next { s with err := false, errcode := 0 }) ∧
  (∀ (s : State) (w : Word), w.extractLsb' 0 4 = 5 → w ≠ 0x00000005 →
    exec (.wrCmd w) s = .next (raise .badCmd s))

/-- spec/40_update_reset.md R130: RESET with nothing in flight, in either phase; and R131, what it leaves alone; while a command is in
flight it raises BUSY. -/
def Obligations.ResetEffect : Prop :=
  ∀ s : State,
    (s.inflight = .none → exec .reset s = .next { s with
      h := ⟨0x67452301, 0xEFCDAB89, 0x98BADCFE, 0x10325476, 0xC3D2E1F0⟩
      len := 0
      buflen := 0
      final := false }) ∧
    (s.inflight ≠ .none → exec .reset s = .next (raise .busy s))

/-- spec/40_update_reset.md R122 to R127: an accepted UPDATE, in both of its rows. LEN grows by NB mod 2^64. The beat's bytes are the
first NB lanes of DATA. With BUFLEN + NB < 64 they are appended and the command is complete; else the block they fill is compressed
as it stood when it was full, the rest of the beat starts the next block, and the command is in flight. -/
def Obligations.UpdateEffect : Prop :=
  ∀ (i : Instr) (nb : Nat) (s : State), IsUpdate i nb → Absorbing s →
    (s.buflen.toNat + nb < 64 → ∃ buf : Buffer,
      exec i s = .next { s with
        len := s.len + BitVec.ofNat 64 nb
        buflen := BitVec.ofNat 6 (s.buflen.toNat + nb)
        buf := buf } ∧
      ∀ j < 64, byteAt buf j =
        if s.buflen.toNat ≤ j ∧ j < s.buflen.toNat + nb then lane s.data (j - s.buflen.toNat)
        else byteAt s.buf j) ∧
    (64 ≤ s.buflen.toNat + nb → ∃ (block : Buffer) (t : State),
      exec i s = .next t ∧
      (∀ j < 64, byteAt block j =
        if s.buflen.toNat ≤ j then lane s.data (j - s.buflen.toNat) else byteAt s.buf j) ∧
      (∀ j < 64, byteAt t.buf j =
        if j < s.buflen.toNat + nb - 64 then lane s.data (64 - s.buflen.toNat + j) else byteAt block j) ∧
      t = { s with
        len := s.len + BitVec.ofNat 64 nb
        h := compress s.h block
        buflen := BitVec.ofNat 6 (s.buflen.toNat + nb - 64)
        inflight := .upd
        buf := t.buf
        unit := t.unit
        engineWait := t.engineWait
        draws := t.draws })

/-- spec/40_update_reset.md R133: UPDATE with NB = 0 changes nothing where an UPDATE is accepted, raises AFTER_FINAL in the FINAL phase
and BUSY while a command is in flight. -/
def Obligations.EmptyUpdate : Prop :=
  ∀ s : State,
    (Absorbing s → exec (.updateNb0to3 0) s = .next s) ∧
    (s.inflight = .none → s.final = true → exec (.updateNb0to3 0) s = .next (raise .afterFinal s)) ∧
    (s.inflight ≠ .none → exec (.updateNb0to3 0) s = .next (raise .busy s))

/-- spec/41_finalize.md R151, R152, R153, R155, R156, an accepted FINALIZE with BUFLEN ≤ 55: one padding block, byte by byte; H and
DIGEST are its compression; LEN is unchanged, BUFLEN 0, FINAL 1, DVALID 0, the command in flight, and nothing else changes. -/
def Obligations.FinalizeOfOnePaddingBlock : Prop :=
  ∀ s : State, Absorbing s → s.buflen.toNat ≤ 55 → ∃ t : State, exec .finalize s = .next t ∧
    (∀ j < 64, byteAt t.buf j =
      if j < s.buflen.toNat then byteAt s.buf j
      else if j = s.buflen.toNat then 0x80
      else if j < 56 then 0x00
      else lengthByte s.len j) ∧
    t = { s with
      h := compress s.h t.buf
      buflen := 0
      digest := compress s.h t.buf
      final := true
      dvalid := false
      inflight := .fin
      buf := t.buf
      unit := t.unit
      engineWait := t.engineWait
      draws := t.draws }

/-- The same rules with BUFLEN 56 to 63: two padding blocks, compressed one after the other; the buffer is left holding the
second. -/
def Obligations.FinalizeOfTwoPaddingBlocks : Prop :=
  ∀ s : State, Absorbing s → 56 ≤ s.buflen.toNat → ∃ (first : Buffer) (t : State), exec .finalize s = .next t ∧
    (∀ j < 64, byteAt first j =
      if j < s.buflen.toNat then byteAt s.buf j
      else if j = s.buflen.toNat then 0x80
      else 0x00) ∧
    (∀ j < 64, byteAt t.buf j = if j < 56 then 0x00 else lengthByte s.len j) ∧
    t = { s with
      h := compress (compress s.h first) t.buf
      buflen := 0
      digest := compress (compress s.h first) t.buf
      final := true
      dvalid := false
      inflight := .fin
      buf := t.buf
      unit := t.unit
      engineWait := t.engineWait
      draws := t.draws }

/-- spec/41_finalize.md R157: an accepted FINALIZE_RESET leaves in DIGEST and the buffer what FINALIZE would, sets H to the IV and LEN
and BUFLEN to 0, keeps FINAL at 0, and is in flight with DVALID 0; nothing else changes. -/
def Obligations.FinalizeResetEffect : Prop :=
  ∀ s : State, Absorbing s → ∃ t u : State, exec .finalizeReset s = .next t ∧ exec .finalize s = .next u ∧
    t = { s with
      h := ⟨0x67452301, 0xEFCDAB89, 0x98BADCFE, 0x10325476, 0xC3D2E1F0⟩
      len := 0
      buflen := 0
      digest := u.digest
      buf := u.buf
      dvalid := false
      inflight := .finr
      unit := t.unit
      engineWait := t.engineWait
      draws := t.draws }

/-- spec/41_finalize.md R163: with an empty buffer, FINALIZE at LEN = 2^61 pads with a length field of 0, and from the IV its digest is
the digest of the empty message, as it is at LEN = 0 (spec/70_reset_and_hazards.md R284), whatever stale bytes the buffer holds; at
LEN = 2^64 - 1 the length field is 0xFFFFFFFFFFFFFFF8. -/
def Obligations.LengthWraparound : Prop :=
  ∀ s : State, Absorbing s → s.buflen = 0 →
    (s.len = 0 ∨ s.len = 0x2000000000000000 → ∃ t, exec .finalize s = .next t ∧
      (∀ j, 56 ≤ j → j ≤ 63 → byteAt t.buf j = 0x00) ∧
      (s.h = iv → t.digest = ⟨0xDA39A3EE, 0x5E6B4B0D, 0x3255BFEF, 0x95601890, 0xAFD80709⟩)) ∧
    (s.len = 0xFFFFFFFFFFFFFFFF → ∃ t, exec .finalize s = .next t ∧
      (∀ j, 56 ≤ j → j ≤ 62 → byteAt t.buf j = 0xFF) ∧ byteAt t.buf 63 = 0xF8)

/-! ## The engine -/

/-- spec/40_update_reset.md R129, spec/41_finalize.md R161: the engine moves only while a command is in flight. In the command's last
cycle its move is the completion step: INFLIGHT goes to NONE, DVALID to 1 for a finalize, and nothing else of the core changes;
before it only the hidden unit does. -/
def Obligations.CompletionStep : Prop :=
  ∀ s : State, s.engineTurn = true → s.inflight ≠ .none ∧ ∃ t, step s = .next t ∧
    ((s.unit.clock Config.form).2 = true → t = { s with
      rdata := none
      inflight := .none
      dvalid := if s.inflight = .upd then s.dvalid else true
      unit := t.unit }) ∧
    ((s.unit.clock Config.form).2 = false → t = { s with
      rdata := none
      unit := t.unit
      engineWait := t.engineWait
      draws := s.draws + 1 })

/-- spec/70_reset_and_hazards.md R292: in every form a command of n blocks keeps the unit running for exactly T_FIXED + n * T_BLOCK
clock cycles; T_BLOCK is at least 80 / ROUNDS_PER_CYCLE in an iterative form and 1 in the combinational one (`PIPELINED` false in
both; where it is true with `ROUNDS_PER_CYCLE = 80` the model takes the number of stages, log 12). The order of cycles is log 8. -/
def Obligations.BusyLastsItsCycles : Prop :=
  (∀ (p : Config.Form) (H : Hash) (blocks : List Buffer) (u : CompUnit) (n : Nat), blocks ≠ [] →
    n < p.tFixed + blocks.length * p.tBlock →
    (((CompUnit.clocks p n (u.start p H blocks)).clock p).2 = true ↔
      n + 1 = p.tFixed + blocks.length * p.tBlock)) ∧
  (∀ p : Config.Form, 1 ≤ p.tBlock ∧
    (p.pipelined = false → p.roundsPerCycle = .r80 → p.tBlock = 1) ∧
    (p.pipelined = false → 80 / p.roundsPerCycle.count ≤ p.tBlock))

/-- spec/70_reset_and_hazards.md R295: a POLL ends. From every state whose host polls, some number of steps leads to a state where the
poll is over, nothing is in flight, STATUS was read with BUSY = 0, and the command's whole effect stands in the registers. -/
def Obligations.EveryPollEnds : Prop :=
  ∀ (s : State) (rest : List HostItem), s.pending = .poll :: rest → s.rstN = true →
    ∃ (n : Nat) (t : State), Sys2Proof.core.run n s = .next t ∧ t.pending = rest ∧
      t.inflight = .none ∧ t.rdata = some t.status ∧ t.h = s.h ∧ t.len = s.len ∧ t.buflen = s.buflen ∧
      t.buf = s.buf ∧ t.digest = s.digest ∧ t.data = s.data ∧ t.final = s.final ∧ t.err = s.err ∧
      t.errcode = s.errcode ∧ t.faults = s.faults ∧
      t.dvalid = (if s.inflight = .fin ∨ s.inflight = .finr then true else s.dvalid)

/-- spec/43_compression.md R227: what the compression unit holds can never be seen. Two states that differ only in the unit's data go,
step by step, to states that differ only in the unit's data. -/
def Obligations.UnitDataIsInvisible : Prop :=
  ∀ s₁ s₂ : State, AgreeButUnitData s₁ s₂ →
    ∃ t₁ t₂, step s₁ = .next t₁ ∧ step s₂ = .next t₂ ∧ AgreeButUnitData t₁ t₂

/-! ## The compression transform -/

/-- spec/43_compression.md R214, R215: the round function and constant of each group of twenty rounds. -/
def Obligations.RoundFunctionsAndConstants : Prop :=
  ∀ (t : Nat) (b c d : Word),
    (t < 20 → roundFunction t b c d = (b &&& c) ||| (~~~b &&& d) ∧ roundConstant t = 0x5A827999) ∧
    (20 ≤ t → t < 40 → roundFunction t b c d = b ^^^ c ^^^ d ∧ roundConstant t = 0x6ED9EBA1) ∧
    (40 ≤ t → t < 60 →
      roundFunction t b c d = (b &&& c) ||| (b &&& d) ||| (c &&& d) ∧ roundConstant t = 0x8F1BBCDC) ∧
    (60 ≤ t → t < 80 → roundFunction t b c d = b ^^^ c ^^^ d ∧ roundConstant t = 0xCA62C1D6)

/-- spec/43_compression.md R219: the equivalent forms an implementation may use. -/
def Obligations.EquivalentRoundFunctions : Prop :=
  ∀ (t : Nat) (b c d : Word),
    (t < 20 → roundFunction t b c d = (b &&& c) ^^^ (~~~b &&& d) ∧
      roundFunction t b c d = (b &&& c) + (~~~b &&& d)) ∧
    (40 ≤ t → t < 60 → roundFunction t b c d = (b &&& c) ^^^ (b &&& d) ^^^ (c &&& d) ∧
      roundFunction t b c d = (b &&& c) ||| (d &&& (b ||| c)))

/-- spec/43_compression.md R211, R212: the message schedule has 80 words; the first sixteen are the block's big-endian words and each
later one is the rotated XOR of four before it. -/
def Obligations.ScheduleRecurrence : Prop :=
  ∀ B : Buffer, (schedule B).length = 80 ∧
    (∀ i < 16, (schedule B).getD i 0 =
      byteAt B (4 * i) ++ byteAt B (4 * i + 1) ++ byteAt B (4 * i + 2) ++ byteAt B (4 * i + 3)) ∧
    (∀ t, 16 ≤ t → t < 80 → (schedule B).getD t 0 =
      ((schedule B).getD (t - 3) 0 ^^^ (schedule B).getD (t - 8) 0 ^^^ (schedule B).getD (t - 14) 0 ^^^
        (schedule B).getD (t - 16) 0).rotateLeft 1)

/-- spec/43_compression.md R221 and spec/95_test_vectors.md section 3.3: two known compressions. -/
def Obligations.KnownCompressions : Prop :=
  compress iv (Vector.replicate 64 0) = ⟨0x92B404E5, 0x56588CED, 0x6C1ACD4E, 0xBF053F68, 0x09F73A93⟩ ∧
  compress iv (Vector.replicate 64 0x61) = ⟨0xDA4968EB, 0x2E377C1F, 0x884E8F52, 0x83524BEB, 0xE74EBDBD⟩

/-- spec/43_compression.md R222: the rolling window of sixteen words, stepped round by round, shows at every round the schedule word
of that round. -/
def Obligations.RollingWindowShowsTheSchedule : Prop :=
  ∀ (B : Buffer) (t : Nat), t < 80 →
    windowAt ((List.range (t + 1)).foldl (fun w r => windowStep r w) (loadWindow B)) t = (schedule B).getD t 0

/-- spec/43_compression.md R226: every form, with every value of its parameters, gives exactly Compress of each block in turn, when
its clock cycles have run. -/
def Obligations.EveryFormGivesCompress : Prop :=
  ∀ (p : Config.Form) (H : Hash) (blocks : List Buffer) (u : CompUnit), blocks ≠ [] →
    (CompUnit.clocks p (p.tFixed + blocks.length * p.tBlock) (u.start p H blocks)).chain =
      blocks.foldl compress H

/-! ## Invariants -/

/-- spec/10_state.md R47: the registers right after reset; and the invariant `Inv` holds there. -/
def Obligations.InvariantAtReset : Prop :=
  Inv State.reset ∧
  State.reset.h = ⟨0x67452301, 0xEFCDAB89, 0x98BADCFE, 0x10325476, 0xC3D2E1F0⟩ ∧ State.reset.len = 0 ∧
  State.reset.buflen = 0 ∧ State.reset.buf = Vector.replicate 64 0x00 ∧ State.reset.digest = ⟨0, 0, 0, 0, 0⟩ ∧
  State.reset.data = 0 ∧ State.reset.status = 0 ∧ State.reset.inflight = .none

/-- Every step keeps the invariant `Inv`: the STATUS fields agree with each other and with the phase; the unit is on its way to the
very H and DIGEST the registers hold, which is the model's reading and no rule of the spec (DEDUCED, log 10); and a core held in
reset (the pin in the model's form, log 9) holds its reset values, the unit's contents left out. -/
def Obligations.EveryStepKeepsTheInvariant : Prop :=
  ∀ s t : State, Inv s → step s = .next t → Inv t

/-! ## The engine as a whole -/

/-- spec/41_finalize.md R162: stale buffer bytes never reach a digest. Whatever instruction but a write of BUFLEN two cores run that
are the same engine but for stale bytes, they stay the same engine; and an accepted finalize gives both the same digest. -/
def Obligations.StaleBytesNeverReachADigest : Prop :=
  ∀ (i : Instr) (s₁ s₂ t₁ t₂ : State), SameEngine s₁ s₂ → (∀ v, i ≠ .wrBuflen v) →
    exec i s₁ = .next t₁ → exec i s₂ = .next t₂ →
    SameEngine t₁ t₂ ∧
    (issued i = .finalize ∨ issued i = .finalizeReset → Absorbing s₁ → t₁.digest = t₂.digest)

/-- spec/40_update_reset.md R131, spec/70_reset_and_hazards.md R285: after RESET the core gives the same digests as after hardware
reset, for every later sequence of accesses that writes no BUFLEN, given the same operand in DATA (which RESET keeps). -/
def Obligations.ResetEngineIsAFreshEngine : Prop :=
  ∀ (s t : State) (es : List Event) (i : Instr), s.inflight = .none → exec .reset s = .next t → NoBuflenWrite es →
    let a := afterEvents t es
    let b := afterEvents { hardwareReset s with data := s.data } es
    SameEngine a b ∧
    (i = .finalize ∨ i = .finalizeReset → Absorbing a → (after i a).digest = (after i b).digest)

/-- spec/40_update_reset.md R128: however a byte string is split into beats, the engine ends in the same H, LEN, BUFLEN and
buf[0..BUFLEN-1], and so either finalize gives the same digest. -/
def Obligations.ChunkingDoesNotMatter : Prop :=
  ∀ (s : State) (beats₁ beats₂ : List (List Byte)), Absorbing s → BeatsFit beats₁ → BeatsFit beats₂ →
    beats₁.flatten = beats₂.flatten →
    let t₁ := feed s beats₁
    let t₂ := feed s beats₂
    t₁.h = t₂.h ∧ t₁.len = t₂.len ∧ t₁.buflen = t₂.buflen ∧
    (∀ j < t₁.buflen.toNat, byteAt t₁.buf j = byteAt t₂.buf j) ∧
    (∀ i ∈ [Instr.finalize, .finalizeReset], ∃ u₁ u₂,
      exec i t₁ = .next u₁ ∧ exec i t₂ = .next u₂ ∧ u₁.digest = u₂.digest)

/-- spec/41_finalize.md R150: whatever the message and however it is split into beats, an engine in its initial state that is fed the
message and finalized holds in DIGEST the digest that the source's procedure gives for the whole message. -/
def Obligations.DigestOfEveryMessage : Prop :=
  ∀ (s : State) (beats : List (List Byte)), Absorbing s → s.h = iv → s.len = 0 → s.buflen = 0 → BeatsFit beats →
    ∃ t u, exec .finalize (feed s beats) = .next t ∧ t.digest = sha1 beats.flatten ∧
      exec .finalizeReset (feed s beats) = .next u ∧ u.digest = sha1 beats.flatten

/-- spec/42_context.md R199: the reads of SAVECTX return the context whole, and RESTORECTX writes it into any core with nothing in
flight and FINAL = 0, changing nothing else of that core. -/
def Obligations.RestoreGivesTheSavedContext : Prop :=
  ∀ s r : State, s.inflight = .none → Absorbing r →
    restoreContext r (savedContext s) = { r with h := s.h, len := s.len, buflen := s.buflen, buf := s.buf }

/-! ## Hardware reset -/

/-- spec/70_reset_and_hazards.md R280, R281, R282: when `rst_n` goes to 0, whatever is in flight is dropped and every piece of the
core's state takes its reset value; an access then leaves it so, a read returning 0 and a write raising no error; the edge that ends
reset leaves the reset values. -/
def Obligations.HardwareReset : Prop :=
  (∀ (s : State) (rest : List HostItem), s.pending = .rst false :: rest → s.engineTurn = false →
    ∃ t, step s = .next t ∧ t.rstN = false ∧ t.pending = rest ∧ t.h = iv ∧ t.len = 0 ∧ t.buflen = 0 ∧
      t.buf = Vector.replicate 64 0 ∧ t.digest = ⟨0, 0, 0, 0, 0⟩ ∧ t.data = 0 ∧ t.status = 0 ∧ t.inflight = .none) ∧
  (∀ (s : State) (c : Code) (rest : List HostItem), s.pending = .access c :: rest → s.engineTurn = false →
    s.rstN = false → ∃ t, step s = .next t ∧
      t = { s with rdata := t.rdata, pending := rest, engineWait := s.engineWait - 1 } ∧
      ((∃ op v, c = .bus op v ∧ op.getLsbD 6 = false) → t.rdata = some 0)) ∧
  (∀ (s : State) (rest : List HostItem), s.pending = .rst true :: rest → s.engineTurn = false → s.rstN = false →
    ∃ t, step s = .next t ∧ t.rstN = true ∧ t.h = iv ∧ t.len = 0 ∧ t.buflen = 0 ∧
      t.buf = Vector.replicate 64 0 ∧ t.digest = ⟨0, 0, 0, 0, 0⟩ ∧ t.data = 0 ∧ t.status = 0 ∧ t.inflight = .none)
end

