-- ==== Sys2Proof/Laws/Bytes.lean ====
section
/-! SUPPORT. Reading a byte of the buffer after a write, the byte lanes of a word, and when two buffers are equal. -/

namespace Sys2Proof.Machine

theorem byteAt_eq_getElem (m : Buffer) {i : Nat} (h : i < 64) : byteAt m i = m[i] := by
  simp [byteAt, Vector.getD, h]

theorem buffer_ext {m m' : Buffer} (h : ∀ j < 64, byteAt m j = byteAt m' j) : m = m' := by
  apply Vector.ext
  intro i hi
  have := h i hi
  rwa [byteAt_eq_getElem m hi, byteAt_eq_getElem m' hi] at this

theorem byteAt_putByte (m : Buffer) (i j : Nat) (b : Byte) (hj : j < 64) :
    byteAt (putByte m i b) j = if j = i then b else byteAt m j := by
  rw [byteAt_eq_getElem _ hj, byteAt_eq_getElem _ hj, putByte, Vector.getElem_setIfInBounds]
  simp only [eq_comm]

/-- Reading after a run of bytes was written: inside the run the byte written there, outside it the byte before. -/
theorem byteAt_putBytes (bs : List Byte) (m : Buffer) (i j : Nat) (hj : j < 64) :
    byteAt (putBytes m i bs) j = if i ≤ j ∧ j < i + bs.length then bs.getD (j - i) 0 else byteAt m j := by
  induction bs generalizing m i with
  | nil => simp [putBytes]
  | cons b bs ih =>
    rw [putBytes, ih]
    by_cases h1 : i + 1 ≤ j ∧ j < i + 1 + bs.length
    · have hji : j - i = (j - (i + 1)) + 1 := by omega
      rw [if_pos h1, if_pos (by simp only [List.length_cons]; omega), hji, List.getD_cons_succ]
    · rw [if_neg h1, byteAt_putByte _ _ _ _ hj]
      by_cases h2 : j = i
      · subst h2; simp
      · rw [if_neg h2, if_neg (by simp only [List.length_cons]; omega)]

theorem byteAt_zeroBytes (m : Buffer) (lo hi j : Nat) (hj : j < 64) :
    byteAt (zeroBytes m lo hi) j = if lo ≤ j ∧ j < hi then 0 else byteAt m j := by
  rw [zeroBytes, byteAt_putBytes _ _ _ _ hj]
  by_cases h : lo ≤ j ∧ j < hi
  · rw [if_pos h, if_pos (by simp only [List.length_replicate]; omega)]
    have : j - lo < hi - lo := by omega
    simp [List.getD_eq_getElem?_getD, this]
  · rw [if_neg h, if_neg (by simp only [List.length_replicate]; omega)]

@[simp] theorem wordBe_lane0 (a b c d : Byte) : (wordBe a b c d).extractLsb' 24 8 = a := by
  apply BitVec.eq_of_getLsbD_eq; intro i hi
  simp [wordBe, hi]
  grind

@[simp] theorem wordBe_lane1 (a b c d : Byte) : (wordBe a b c d).extractLsb' 16 8 = b := by
  apply BitVec.eq_of_getLsbD_eq; intro i hi
  simp [wordBe, hi]
  grind

@[simp] theorem wordBe_lane2 (a b c d : Byte) : (wordBe a b c d).extractLsb' 8 8 = c := by
  apply BitVec.eq_of_getLsbD_eq; intro i hi
  simp [wordBe, hi]
  grind

@[simp] theorem wordBe_lane3 (a b c d : Byte) : (wordBe a b c d).extractLsb' 0 8 = d := by
  apply BitVec.eq_of_getLsbD_eq; intro i hi
  simp [wordBe, hi]
  grind

/-- `word_be` is the inverse of `be32` (spec/00_scope.md R13). -/
theorem be32_wordBe (a b c d : Byte) : be32 (wordBe a b c d) = [a, b, c, d] := by
  simp [be32, wordBe_lane0, wordBe_lane1, wordBe_lane2, wordBe_lane3]

@[simp] theorem be32_length (x : Word) : (be32 x).length = 4 := by simp [be32]

@[simp] theorem be64_length (x : BitVec 64) : (be64 x).length = 8 := by simp [be64]

@[simp] theorem beatBytes_length (nb : Nat) (v : Word) : (beatBytes nb v).length = min nb 4 := by
  simp [beatBytes]

/-- The bytes that a packed beat hands to UPDATE are the beat's own. -/
theorem beatBytes_packBeat (bs : List Byte) (h : bs.length ≤ 4) :
    beatBytes bs.length (Asm.packBeat bs) = bs := by
  rw [beatBytes, Asm.packBeat, be32_wordBe]
  match bs, h with
  | [], _ => rfl
  | [_], _ => rfl
  | [_, _], _ => rfl
  | [_, _, _], _ => rfl
  | [_, _, _, _], _ => rfl

end Sys2Proof.Machine
end

