-- ==== Sys2Proof/Laws/State.lean ====
section
/-! SUPPORT. One lemma per field for each named update of the state, true by definition: no later proof unfolds a record update. -/

namespace Sys2Proof.Machine

/-! ### raise -/

@[simp] theorem raise_h (c : ErrCode) (s : State) : (raise c s).h = s.h := rfl
@[simp] theorem raise_len (c : ErrCode) (s : State) : (raise c s).len = s.len := rfl
@[simp] theorem raise_buflen (c : ErrCode) (s : State) : (raise c s).buflen = s.buflen := rfl
@[simp] theorem raise_buf (c : ErrCode) (s : State) : (raise c s).buf = s.buf := rfl
@[simp] theorem raise_digest (c : ErrCode) (s : State) : (raise c s).digest = s.digest := rfl
@[simp] theorem raise_data (c : ErrCode) (s : State) : (raise c s).data = s.data := rfl
@[simp] theorem raise_dvalid (c : ErrCode) (s : State) : (raise c s).dvalid = s.dvalid := rfl
@[simp] theorem raise_final (c : ErrCode) (s : State) : (raise c s).final = s.final := rfl
@[simp] theorem raise_err (c : ErrCode) (s : State) : (raise c s).err = true := rfl
@[simp] theorem raise_errcode (c : ErrCode) (s : State) : (raise c s).errcode = if s.err then s.errcode else c.code := rfl
@[simp] theorem raise_inflight (c : ErrCode) (s : State) : (raise c s).inflight = s.inflight := rfl
@[simp] theorem raise_unit (c : ErrCode) (s : State) : (raise c s).unit = s.unit := rfl
@[simp] theorem raise_rstN (c : ErrCode) (s : State) : (raise c s).rstN = s.rstN := rfl
@[simp] theorem raise_rdata (c : ErrCode) (s : State) : (raise c s).rdata = s.rdata := rfl
@[simp] theorem raise_faults (c : ErrCode) (s : State) : (raise c s).faults = s.faults ++ [c] := rfl
@[simp] theorem raise_pending (c : ErrCode) (s : State) : (raise c s).pending = s.pending := rfl
@[simp] theorem raise_engineWait (c : ErrCode) (s : State) : (raise c s).engineWait = s.engineWait := rfl
@[simp] theorem raise_draws (c : ErrCode) (s : State) : (raise c s).draws = s.draws := rfl

/-! ### clearError -/

@[simp] theorem clearError_h (s : State) : (clearError s).h = s.h := rfl
@[simp] theorem clearError_len (s : State) : (clearError s).len = s.len := rfl
@[simp] theorem clearError_buflen (s : State) : (clearError s).buflen = s.buflen := rfl
@[simp] theorem clearError_buf (s : State) : (clearError s).buf = s.buf := rfl
@[simp] theorem clearError_digest (s : State) : (clearError s).digest = s.digest := rfl
@[simp] theorem clearError_data (s : State) : (clearError s).data = s.data := rfl
@[simp] theorem clearError_dvalid (s : State) : (clearError s).dvalid = s.dvalid := rfl
@[simp] theorem clearError_final (s : State) : (clearError s).final = s.final := rfl
@[simp] theorem clearError_err (s : State) : (clearError s).err = false := rfl
@[simp] theorem clearError_errcode (s : State) : (clearError s).errcode = 0 := rfl
@[simp] theorem clearError_inflight (s : State) : (clearError s).inflight = s.inflight := rfl
@[simp] theorem clearError_unit (s : State) : (clearError s).unit = s.unit := rfl
@[simp] theorem clearError_rstN (s : State) : (clearError s).rstN = s.rstN := rfl
@[simp] theorem clearError_rdata (s : State) : (clearError s).rdata = s.rdata := rfl
@[simp] theorem clearError_faults (s : State) : (clearError s).faults = s.faults := rfl
@[simp] theorem clearError_pending (s : State) : (clearError s).pending = s.pending := rfl
@[simp] theorem clearError_engineWait (s : State) : (clearError s).engineWait = s.engineWait := rfl
@[simp] theorem clearError_draws (s : State) : (clearError s).draws = s.draws := rfl

/-! ### returnWord -/

@[simp] theorem returnWord_h (v : Word) (s : State) : (returnWord v s).h = s.h := rfl
@[simp] theorem returnWord_len (v : Word) (s : State) : (returnWord v s).len = s.len := rfl
@[simp] theorem returnWord_buflen (v : Word) (s : State) : (returnWord v s).buflen = s.buflen := rfl
@[simp] theorem returnWord_buf (v : Word) (s : State) : (returnWord v s).buf = s.buf := rfl
@[simp] theorem returnWord_digest (v : Word) (s : State) : (returnWord v s).digest = s.digest := rfl
@[simp] theorem returnWord_data (v : Word) (s : State) : (returnWord v s).data = s.data := rfl
@[simp] theorem returnWord_dvalid (v : Word) (s : State) : (returnWord v s).dvalid = s.dvalid := rfl
@[simp] theorem returnWord_final (v : Word) (s : State) : (returnWord v s).final = s.final := rfl
@[simp] theorem returnWord_err (v : Word) (s : State) : (returnWord v s).err = s.err := rfl
@[simp] theorem returnWord_errcode (v : Word) (s : State) : (returnWord v s).errcode = s.errcode := rfl
@[simp] theorem returnWord_inflight (v : Word) (s : State) : (returnWord v s).inflight = s.inflight := rfl
@[simp] theorem returnWord_unit (v : Word) (s : State) : (returnWord v s).unit = s.unit := rfl
@[simp] theorem returnWord_rstN (v : Word) (s : State) : (returnWord v s).rstN = s.rstN := rfl
@[simp] theorem returnWord_rdata (v : Word) (s : State) : (returnWord v s).rdata = some v := rfl
@[simp] theorem returnWord_faults (v : Word) (s : State) : (returnWord v s).faults = s.faults := rfl
@[simp] theorem returnWord_pending (v : Word) (s : State) : (returnWord v s).pending = s.pending := rfl
@[simp] theorem returnWord_engineWait (v : Word) (s : State) : (returnWord v s).engineWait = s.engineWait := rfl
@[simp] theorem returnWord_draws (v : Word) (s : State) : (returnWord v s).draws = s.draws := rfl

/-! ### returnUnspec -/

@[simp] theorem returnUnspec_h (s : State) : (returnUnspec s).h = s.h := rfl
@[simp] theorem returnUnspec_len (s : State) : (returnUnspec s).len = s.len := rfl
@[simp] theorem returnUnspec_buflen (s : State) : (returnUnspec s).buflen = s.buflen := rfl
@[simp] theorem returnUnspec_buf (s : State) : (returnUnspec s).buf = s.buf := rfl
@[simp] theorem returnUnspec_digest (s : State) : (returnUnspec s).digest = s.digest := rfl
@[simp] theorem returnUnspec_data (s : State) : (returnUnspec s).data = s.data := rfl
@[simp] theorem returnUnspec_dvalid (s : State) : (returnUnspec s).dvalid = s.dvalid := rfl
@[simp] theorem returnUnspec_final (s : State) : (returnUnspec s).final = s.final := rfl
@[simp] theorem returnUnspec_err (s : State) : (returnUnspec s).err = s.err := rfl
@[simp] theorem returnUnspec_errcode (s : State) : (returnUnspec s).errcode = s.errcode := rfl
@[simp] theorem returnUnspec_inflight (s : State) : (returnUnspec s).inflight = s.inflight := rfl
@[simp] theorem returnUnspec_unit (s : State) : (returnUnspec s).unit = s.unit := rfl
@[simp] theorem returnUnspec_rstN (s : State) : (returnUnspec s).rstN = s.rstN := rfl
@[simp] theorem returnUnspec_rdata (s : State) : (returnUnspec s).rdata = some (Config.unspecRead s.draws) := rfl
@[simp] theorem returnUnspec_faults (s : State) : (returnUnspec s).faults = s.faults := rfl
@[simp] theorem returnUnspec_pending (s : State) : (returnUnspec s).pending = s.pending := rfl
@[simp] theorem returnUnspec_engineWait (s : State) : (returnUnspec s).engineWait = s.engineWait := rfl
@[simp] theorem returnUnspec_draws (s : State) : (returnUnspec s).draws = s.draws + 1 := rfl

/-! ### launch -/

@[simp] theorem launch_h (k : InFlight) (H : Hash) (Bs : List Buffer) (s : State) : (launch k H Bs s).h = s.h := rfl
@[simp] theorem launch_len (k : InFlight) (H : Hash) (Bs : List Buffer) (s : State) : (launch k H Bs s).len = s.len := rfl
@[simp] theorem launch_buflen (k : InFlight) (H : Hash) (Bs : List Buffer) (s : State) : (launch k H Bs s).buflen = s.buflen := rfl
@[simp] theorem launch_buf (k : InFlight) (H : Hash) (Bs : List Buffer) (s : State) : (launch k H Bs s).buf = s.buf := rfl
@[simp] theorem launch_digest (k : InFlight) (H : Hash) (Bs : List Buffer) (s : State) : (launch k H Bs s).digest = s.digest := rfl
@[simp] theorem launch_data (k : InFlight) (H : Hash) (Bs : List Buffer) (s : State) : (launch k H Bs s).data = s.data := rfl
@[simp] theorem launch_dvalid (k : InFlight) (H : Hash) (Bs : List Buffer) (s : State) : (launch k H Bs s).dvalid = s.dvalid := rfl
@[simp] theorem launch_final (k : InFlight) (H : Hash) (Bs : List Buffer) (s : State) : (launch k H Bs s).final = s.final := rfl
@[simp] theorem launch_err (k : InFlight) (H : Hash) (Bs : List Buffer) (s : State) : (launch k H Bs s).err = s.err := rfl
@[simp] theorem launch_errcode (k : InFlight) (H : Hash) (Bs : List Buffer) (s : State) : (launch k H Bs s).errcode = s.errcode := rfl
@[simp] theorem launch_inflight (k : InFlight) (H : Hash) (Bs : List Buffer) (s : State) : (launch k H Bs s).inflight = k := rfl
@[simp] theorem launch_unit (k : InFlight) (H : Hash) (Bs : List Buffer) (s : State) : (launch k H Bs s).unit = s.unit.start Config.form H Bs := rfl
@[simp] theorem launch_rstN (k : InFlight) (H : Hash) (Bs : List Buffer) (s : State) : (launch k H Bs s).rstN = s.rstN := rfl
@[simp] theorem launch_rdata (k : InFlight) (H : Hash) (Bs : List Buffer) (s : State) : (launch k H Bs s).rdata = s.rdata := rfl
@[simp] theorem launch_faults (k : InFlight) (H : Hash) (Bs : List Buffer) (s : State) : (launch k H Bs s).faults = s.faults := rfl
@[simp] theorem launch_pending (k : InFlight) (H : Hash) (Bs : List Buffer) (s : State) : (launch k H Bs s).pending = s.pending := rfl
@[simp] theorem launch_engineWait (k : InFlight) (H : Hash) (Bs : List Buffer) (s : State) : (launch k H Bs s).engineWait = Config.hostAccesses s.draws := rfl
@[simp] theorem launch_draws (k : InFlight) (H : Hash) (Bs : List Buffer) (s : State) : (launch k H Bs s).draws = s.draws + 1 := rfl

/-! ### resetEffect -/

@[simp] theorem resetEffect_h (s : State) : (resetEffect s).h = iv := rfl
@[simp] theorem resetEffect_len (s : State) : (resetEffect s).len = 0 := rfl
@[simp] theorem resetEffect_buflen (s : State) : (resetEffect s).buflen = 0 := rfl
@[simp] theorem resetEffect_buf (s : State) : (resetEffect s).buf = s.buf := rfl
@[simp] theorem resetEffect_digest (s : State) : (resetEffect s).digest = s.digest := rfl
@[simp] theorem resetEffect_data (s : State) : (resetEffect s).data = s.data := rfl
@[simp] theorem resetEffect_dvalid (s : State) : (resetEffect s).dvalid = s.dvalid := rfl
@[simp] theorem resetEffect_final (s : State) : (resetEffect s).final = false := rfl
@[simp] theorem resetEffect_err (s : State) : (resetEffect s).err = s.err := rfl
@[simp] theorem resetEffect_errcode (s : State) : (resetEffect s).errcode = s.errcode := rfl
@[simp] theorem resetEffect_inflight (s : State) : (resetEffect s).inflight = s.inflight := rfl
@[simp] theorem resetEffect_unit (s : State) : (resetEffect s).unit = s.unit := rfl
@[simp] theorem resetEffect_rstN (s : State) : (resetEffect s).rstN = s.rstN := rfl
@[simp] theorem resetEffect_rdata (s : State) : (resetEffect s).rdata = s.rdata := rfl
@[simp] theorem resetEffect_faults (s : State) : (resetEffect s).faults = s.faults := rfl
@[simp] theorem resetEffect_pending (s : State) : (resetEffect s).pending = s.pending := rfl
@[simp] theorem resetEffect_engineWait (s : State) : (resetEffect s).engineWait = s.engineWait := rfl
@[simp] theorem resetEffect_draws (s : State) : (resetEffect s).draws = s.draws := rfl

/-! ### padAndCompress -/

@[simp] theorem padAndCompress_h (s : State) : (padAndCompress s).h = compressAll s.h s.padBlocks := rfl
@[simp] theorem padAndCompress_len (s : State) : (padAndCompress s).len = s.len := rfl
@[simp] theorem padAndCompress_buflen (s : State) : (padAndCompress s).buflen = 0 := rfl
@[simp] theorem padAndCompress_buf (s : State) : (padAndCompress s).buf = s.padBlocks.getLastD s.buf := rfl
@[simp] theorem padAndCompress_digest (s : State) : (padAndCompress s).digest = s.digest := rfl
@[simp] theorem padAndCompress_data (s : State) : (padAndCompress s).data = s.data := rfl
@[simp] theorem padAndCompress_dvalid (s : State) : (padAndCompress s).dvalid = s.dvalid := rfl
@[simp] theorem padAndCompress_final (s : State) : (padAndCompress s).final = s.final := rfl
@[simp] theorem padAndCompress_err (s : State) : (padAndCompress s).err = s.err := rfl
@[simp] theorem padAndCompress_errcode (s : State) : (padAndCompress s).errcode = s.errcode := rfl
@[simp] theorem padAndCompress_inflight (s : State) : (padAndCompress s).inflight = s.inflight := rfl
@[simp] theorem padAndCompress_unit (s : State) : (padAndCompress s).unit = s.unit := rfl
@[simp] theorem padAndCompress_rstN (s : State) : (padAndCompress s).rstN = s.rstN := rfl
@[simp] theorem padAndCompress_rdata (s : State) : (padAndCompress s).rdata = s.rdata := rfl
@[simp] theorem padAndCompress_faults (s : State) : (padAndCompress s).faults = s.faults := rfl
@[simp] theorem padAndCompress_pending (s : State) : (padAndCompress s).pending = s.pending := rfl
@[simp] theorem padAndCompress_engineWait (s : State) : (padAndCompress s).engineWait = s.engineWait := rfl
@[simp] theorem padAndCompress_draws (s : State) : (padAndCompress s).draws = s.draws := rfl

/-! ### latchDigest -/

@[simp] theorem latchDigest_h (s : State) : (latchDigest s).h = s.h := rfl
@[simp] theorem latchDigest_len (s : State) : (latchDigest s).len = s.len := rfl
@[simp] theorem latchDigest_buflen (s : State) : (latchDigest s).buflen = s.buflen := rfl
@[simp] theorem latchDigest_buf (s : State) : (latchDigest s).buf = s.buf := rfl
@[simp] theorem latchDigest_digest (s : State) : (latchDigest s).digest = s.h := rfl
@[simp] theorem latchDigest_data (s : State) : (latchDigest s).data = s.data := rfl
@[simp] theorem latchDigest_dvalid (s : State) : (latchDigest s).dvalid = false := rfl
@[simp] theorem latchDigest_final (s : State) : (latchDigest s).final = s.final := rfl
@[simp] theorem latchDigest_err (s : State) : (latchDigest s).err = s.err := rfl
@[simp] theorem latchDigest_errcode (s : State) : (latchDigest s).errcode = s.errcode := rfl
@[simp] theorem latchDigest_inflight (s : State) : (latchDigest s).inflight = s.inflight := rfl
@[simp] theorem latchDigest_unit (s : State) : (latchDigest s).unit = s.unit := rfl
@[simp] theorem latchDigest_rstN (s : State) : (latchDigest s).rstN = s.rstN := rfl
@[simp] theorem latchDigest_rdata (s : State) : (latchDigest s).rdata = s.rdata := rfl
@[simp] theorem latchDigest_faults (s : State) : (latchDigest s).faults = s.faults := rfl
@[simp] theorem latchDigest_pending (s : State) : (latchDigest s).pending = s.pending := rfl
@[simp] theorem latchDigest_engineWait (s : State) : (latchDigest s).engineWait = s.engineWait := rfl
@[simp] theorem latchDigest_draws (s : State) : (latchDigest s).draws = s.draws := rfl

/-! ### beginStep -/

@[simp] theorem beginStep_h (s : State) : (beginStep s).h = s.h := rfl
@[simp] theorem beginStep_len (s : State) : (beginStep s).len = s.len := rfl
@[simp] theorem beginStep_buflen (s : State) : (beginStep s).buflen = s.buflen := rfl
@[simp] theorem beginStep_buf (s : State) : (beginStep s).buf = s.buf := rfl
@[simp] theorem beginStep_digest (s : State) : (beginStep s).digest = s.digest := rfl
@[simp] theorem beginStep_data (s : State) : (beginStep s).data = s.data := rfl
@[simp] theorem beginStep_dvalid (s : State) : (beginStep s).dvalid = s.dvalid := rfl
@[simp] theorem beginStep_final (s : State) : (beginStep s).final = s.final := rfl
@[simp] theorem beginStep_err (s : State) : (beginStep s).err = s.err := rfl
@[simp] theorem beginStep_errcode (s : State) : (beginStep s).errcode = s.errcode := rfl
@[simp] theorem beginStep_inflight (s : State) : (beginStep s).inflight = s.inflight := rfl
@[simp] theorem beginStep_unit (s : State) : (beginStep s).unit = s.unit := rfl
@[simp] theorem beginStep_rstN (s : State) : (beginStep s).rstN = s.rstN := rfl
@[simp] theorem beginStep_rdata (s : State) : (beginStep s).rdata = none := rfl
@[simp] theorem beginStep_faults (s : State) : (beginStep s).faults = s.faults := rfl
@[simp] theorem beginStep_pending (s : State) : (beginStep s).pending = s.pending := rfl
@[simp] theorem beginStep_engineWait (s : State) : (beginStep s).engineWait = s.engineWait := rfl
@[simp] theorem beginStep_draws (s : State) : (beginStep s).draws = s.draws := rfl

/-! ### takeItem -/

@[simp] theorem takeItem_h (rest : List HostItem) (s : State) : (takeItem rest s).h = s.h := rfl
@[simp] theorem takeItem_len (rest : List HostItem) (s : State) : (takeItem rest s).len = s.len := rfl
@[simp] theorem takeItem_buflen (rest : List HostItem) (s : State) : (takeItem rest s).buflen = s.buflen := rfl
@[simp] theorem takeItem_buf (rest : List HostItem) (s : State) : (takeItem rest s).buf = s.buf := rfl
@[simp] theorem takeItem_digest (rest : List HostItem) (s : State) : (takeItem rest s).digest = s.digest := rfl
@[simp] theorem takeItem_data (rest : List HostItem) (s : State) : (takeItem rest s).data = s.data := rfl
@[simp] theorem takeItem_dvalid (rest : List HostItem) (s : State) : (takeItem rest s).dvalid = s.dvalid := rfl
@[simp] theorem takeItem_final (rest : List HostItem) (s : State) : (takeItem rest s).final = s.final := rfl
@[simp] theorem takeItem_err (rest : List HostItem) (s : State) : (takeItem rest s).err = s.err := rfl
@[simp] theorem takeItem_errcode (rest : List HostItem) (s : State) : (takeItem rest s).errcode = s.errcode := rfl
@[simp] theorem takeItem_inflight (rest : List HostItem) (s : State) : (takeItem rest s).inflight = s.inflight := rfl
@[simp] theorem takeItem_unit (rest : List HostItem) (s : State) : (takeItem rest s).unit = s.unit := rfl
@[simp] theorem takeItem_rstN (rest : List HostItem) (s : State) : (takeItem rest s).rstN = s.rstN := rfl
@[simp] theorem takeItem_rdata (rest : List HostItem) (s : State) : (takeItem rest s).rdata = s.rdata := rfl
@[simp] theorem takeItem_faults (rest : List HostItem) (s : State) : (takeItem rest s).faults = s.faults := rfl
@[simp] theorem takeItem_pending (rest : List HostItem) (s : State) : (takeItem rest s).pending = rest := rfl
@[simp] theorem takeItem_engineWait (rest : List HostItem) (s : State) : (takeItem rest s).engineWait = s.engineWait - 1 := rfl
@[simp] theorem takeItem_draws (rest : List HostItem) (s : State) : (takeItem rest s).draws = s.draws := rfl

/-! ### hardwareReset -/

@[simp] theorem hardwareReset_h (s : State) : (hardwareReset s).h = State.reset.h := rfl
@[simp] theorem hardwareReset_len (s : State) : (hardwareReset s).len = State.reset.len := rfl
@[simp] theorem hardwareReset_buflen (s : State) : (hardwareReset s).buflen = State.reset.buflen := rfl
@[simp] theorem hardwareReset_buf (s : State) : (hardwareReset s).buf = State.reset.buf := rfl
@[simp] theorem hardwareReset_digest (s : State) : (hardwareReset s).digest = State.reset.digest := rfl
@[simp] theorem hardwareReset_data (s : State) : (hardwareReset s).data = State.reset.data := rfl
@[simp] theorem hardwareReset_dvalid (s : State) : (hardwareReset s).dvalid = State.reset.dvalid := rfl
@[simp] theorem hardwareReset_final (s : State) : (hardwareReset s).final = State.reset.final := rfl
@[simp] theorem hardwareReset_err (s : State) : (hardwareReset s).err = State.reset.err := rfl
@[simp] theorem hardwareReset_errcode (s : State) : (hardwareReset s).errcode = State.reset.errcode := rfl
@[simp] theorem hardwareReset_inflight (s : State) : (hardwareReset s).inflight = State.reset.inflight := rfl
@[simp] theorem hardwareReset_unit (s : State) : (hardwareReset s).unit = State.reset.unit := rfl
@[simp] theorem hardwareReset_rstN (s : State) : (hardwareReset s).rstN = s.rstN := rfl
@[simp] theorem hardwareReset_rdata (s : State) : (hardwareReset s).rdata = s.rdata := rfl
@[simp] theorem hardwareReset_faults (s : State) : (hardwareReset s).faults = s.faults := rfl
@[simp] theorem hardwareReset_pending (s : State) : (hardwareReset s).pending = s.pending := rfl
@[simp] theorem hardwareReset_engineWait (s : State) : (hardwareReset s).engineWait = s.engineWait := rfl
@[simp] theorem hardwareReset_draws (s : State) : (hardwareReset s).draws = s.draws := rfl

end Sys2Proof.Machine
end

