-- ==== Sys2Proof/Laws/Ops.lean ====
section
/-! SUPPORT. What each shared operation can do, said once: an operation that decides between an effect and an error answers one of
the cases below and nothing else. -/

namespace Sys2Proof.Machine

/-- A context read returns the register's value when nothing is in flight, else a fresh draw. -/
theorem readContext_cases (v : Word) (s : State) :
    (s.inflight = .none ∧ readContext v s = returnWord v s) ∨
    (s.inflight ≠ .none ∧ readContext v s = returnUnspec s) := by
  by_cases h : s.inflight = .none <;> simp [readContext, h]

/-- A digest read returns a fresh draw exactly while a finalize is in flight. -/
theorem readDigest_cases (v : Word) (s : State) :
    ((s.inflight = .none ∨ s.inflight = .upd) ∧ readDigest v s = returnWord v s) ∨
    ((s.inflight = .fin ∨ s.inflight = .finr) ∧ readDigest v s = returnUnspec s) := by
  cases h : s.inflight <;> simp [readDigest, h]

/-- A context write has its effect when nothing is in flight, else it raises BUSY. -/
theorem writeContext_cases (f : State → State) (s : State) :
    (s.inflight = .none ∧ writeContext f s = f s) ∨
    (s.inflight ≠ .none ∧ writeContext f s = raise .busy s) := by
  by_cases h : s.inflight = .none <;> simp [writeContext, h]

/-- RESET has its effect when nothing is in flight, else it raises BUSY. -/
theorem acceptWhenIdle_cases (f : State → State) (s : State) :
    (s.inflight = .none ∧ acceptWhenIdle f s = f s) ∨
    (s.inflight ≠ .none ∧ acceptWhenIdle f s = raise .busy s) := by
  by_cases h : s.inflight = .none <;> simp [acceptWhenIdle, h]

/-- UPDATE and the finalize commands: accepted, refused with BUSY, or refused with AFTER_FINAL. -/
theorem acceptInAbsorb_cases (f : State → State) (s : State) :
    (s.inflight = .none ∧ s.final = false ∧ acceptInAbsorb f s = f s) ∨
    (s.inflight ≠ .none ∧ acceptInAbsorb f s = raise .busy s) ∨
    (s.inflight = .none ∧ s.final = true ∧ acceptInAbsorb f s = raise .afterFinal s) := by
  by_cases h : s.inflight = .none <;> cases hf : s.final <;> simp [acceptInAbsorb, h, hf]

/-- The completion step clears INFLIGHT, sets DVALID for a finalize, and does nothing else. -/
theorem complete_eq (s : State) :
    complete s = { s with
      inflight := .none
      dvalid := if s.inflight = .fin ∨ s.inflight = .finr then true else s.dvalid } := by
  obtain ⟨_, _, _, _, _, _, _, _, _, _, k, _, _, _, _, _, _, _⟩ := s
  cases k <;> rfl

/-- The state a byte leads to when it does not fill the block. -/
theorem absorbByte_open (s : State) (b : Byte) (h : s.buflen.toNat + 1 < 64) :
    absorbByte s b = { s with buf := putByte s.buf s.buflen.toNat b, buflen := s.buflen + 1 } := by
  simp [absorbByte, show ¬ s.buflen.toNat + 1 = 64 by omega]

/-- The state a byte leads to when it fills the block. -/
theorem absorbByte_full (s : State) (b : Byte) (h : s.buflen.toNat + 1 = 64) :
    absorbByte s b = launch .upd s.h [putByte s.buf s.buflen.toNat b] { s with
      buf := putByte s.buf s.buflen.toNat b
      h := compress s.h (putByte s.buf s.buflen.toNat b)
      buflen := 0 } := by
  simp [absorbByte, h]

/-- The engine moves only while a command is in flight. -/
theorem engineTurn_inflight {s : State} (h : s.engineTurn = true) : s.inflight ≠ .none := by
  simp [State.engineTurn, State.busy] at h
  exact h.1

/-- A move of the engine is the completion step, or it changes only the hidden unit and the model's own counters. -/
theorem engineStep_cases (s : State) :
    ((s.unit.clock Config.form).2 = true ∧
      engineStep s = { s with
        unit := (s.unit.clock Config.form).1
        inflight := .none
        dvalid := if s.inflight = .fin ∨ s.inflight = .finr then true else s.dvalid }) ∨
    ((s.unit.clock Config.form).2 = false ∧
      engineStep s = { s with
        unit := (s.unit.clock Config.form).1
        engineWait := Config.hostAccesses s.draws
        draws := s.draws + 1 }) := by
  have h : engineStep s = if (s.unit.clock Config.form).2 then
      complete { s with unit := (s.unit.clock Config.form).1 }
    else { s with
      unit := (s.unit.clock Config.form).1
      engineWait := Config.hostAccesses s.draws
      draws := s.draws + 1 } := rfl
  rw [h]
  generalize (s.unit.clock Config.form) = r
  cases r.2
  · exact .inr ⟨rfl, rfl⟩
  · exact .inl ⟨rfl, by rw [if_pos rfl, complete_eq]⟩

/-- A step is a move of the engine, an idle step, or the taking of the host's next item. -/
theorem step_cases (s : State) :
    (s.engineTurn = true ∧ step s = .next (engineStep (beginStep s))) ∨
    (s.engineTurn = false ∧
      ((s.pending = [] ∧ step s = .next (beginStep s)) ∨
       (∃ c rest, s.pending = .access c :: rest ∧ s.rstN = true ∧
          step s = exec (decode c) (takeItem rest (beginStep s))) ∨
       (∃ c rest, s.pending = .access c :: rest ∧ s.rstN = false ∧
          step s = .next (ignoredAccess c (takeItem rest (beginStep s)))) ∨
       (∃ rest, s.pending = .poll :: rest ∧ step s = .next (pollOnce (takeItem rest (beginStep s)))) ∨
       (∃ level rest, s.pending = .rst level :: rest ∧
          step s = .next (setRstN level (takeItem rest (beginStep s)))))) := by
  cases ht : s.engineTurn
  · refine .inr ⟨rfl, ?_⟩
    match hp : s.pending with
    | [] => simp [step, ht, hostStep, hp]
    | .access c :: rest => cases hr : s.rstN <;> simp [step, ht, hostStep, hp, hr]
    | .poll :: rest => simp [step, ht, hostStep, hp]
    | .rst level :: rest => simp [step, ht, hostStep, hp]
  · simp [step, ht]

end Sys2Proof.Machine
end

