-- ==== Sys2Proof/Laws/Commands.lean ====
section
/-! SUPPORT. What the streaming commands leave alone: the loop of UPDATE never touches the phase, the digest, DATA, the error
fields or the host's side, and the padding never changes LEN. -/

namespace Sys2Proof.Machine

/-- What a byte that enters the buffer leaves alone. -/
theorem absorbByte_frame (s : State) (b : Byte) :
    absorbByte s b = { s with
      h := (absorbByte s b).h
      buflen := (absorbByte s b).buflen
      buf := (absorbByte s b).buf
      inflight := (absorbByte s b).inflight
      unit := (absorbByte s b).unit
      engineWait := (absorbByte s b).engineWait
      draws := (absorbByte s b).draws } := by
  by_cases h : s.buflen.toNat + 1 = 64
  · rw [absorbByte_full s b h]; rfl
  · rw [absorbByte_open s b (by have := s.buflen.isLt; omega)]

/-- What bytes that enter the buffer leave alone. -/
theorem absorb_frame (s : State) (bs : List Byte) :
    absorb s bs = { s with
      h := (absorb s bs).h
      buflen := (absorb s bs).buflen
      buf := (absorb s bs).buf
      inflight := (absorb s bs).inflight
      unit := (absorb s bs).unit
      engineWait := (absorb s bs).engineWait
      draws := (absorb s bs).draws } := by
  induction bs generalizing s with
  | nil => rfl
  | cons b bs ih =>
    have e : absorb s (b :: bs) = absorb (absorbByte s b) bs := rfl
    have f := absorbByte_frame s b
    rw [e]
    generalize absorbByte s b = u at *
    have i := ih u
    generalize absorb u bs = w at *
    rw [f] at i
    exact i

/-- What UPDATE leaves alone, and its count. -/
theorem updateEffect_frame (nb : Nat) (s : State) :
    updateEffect nb s = { s with
      len := s.len + BitVec.ofNat 64 nb
      h := (updateEffect nb s).h
      buflen := (updateEffect nb s).buflen
      buf := (updateEffect nb s).buf
      inflight := (updateEffect nb s).inflight
      unit := (updateEffect nb s).unit
      engineWait := (updateEffect nb s).engineWait
      draws := (updateEffect nb s).draws } := absorb_frame _ _

@[simp] theorem updateEffect_len (nb : Nat) (s : State) : (updateEffect nb s).len = s.len + BitVec.ofNat 64 nb := by
  rw [updateEffect_frame]
@[simp] theorem updateEffect_digest (nb : Nat) (s : State) : (updateEffect nb s).digest = s.digest := by
  rw [updateEffect_frame]
@[simp] theorem updateEffect_data (nb : Nat) (s : State) : (updateEffect nb s).data = s.data := by rw [updateEffect_frame]
@[simp] theorem updateEffect_dvalid (nb : Nat) (s : State) : (updateEffect nb s).dvalid = s.dvalid := by
  rw [updateEffect_frame]
@[simp] theorem updateEffect_final (nb : Nat) (s : State) : (updateEffect nb s).final = s.final := by
  rw [updateEffect_frame]
@[simp] theorem updateEffect_err (nb : Nat) (s : State) : (updateEffect nb s).err = s.err := by rw [updateEffect_frame]
@[simp] theorem updateEffect_errcode (nb : Nat) (s : State) : (updateEffect nb s).errcode = s.errcode := by
  rw [updateEffect_frame]
@[simp] theorem updateEffect_rstN (nb : Nat) (s : State) : (updateEffect nb s).rstN = s.rstN := by rw [updateEffect_frame]
@[simp] theorem updateEffect_rdata (nb : Nat) (s : State) : (updateEffect nb s).rdata = s.rdata := by
  rw [updateEffect_frame]
@[simp] theorem updateEffect_faults (nb : Nat) (s : State) : (updateEffect nb s).faults = s.faults := by
  rw [updateEffect_frame]
@[simp] theorem updateEffect_pending (nb : Nat) (s : State) : (updateEffect nb s).pending = s.pending := by
  rw [updateEffect_frame]

end Sys2Proof.Machine
end

