-- ==== Sys2Proof/Laws/CompressionUnit.lean ====
section
/-! SUPPORT. The compression unit's rounds and clock cycles: what they keep, how they add up, and how a cycle counts down. -/

namespace Sys2Proof.Machine.CompUnit

@[simp] theorem round_chain (u : CompUnit) : u.round.chain = u.chain := rfl
@[simp] theorem round_next (u : CompUnit) : u.round.next = u.next := rfl
@[simp] theorem round_cycle (u : CompUnit) : u.round.cycle = u.cycle := rfl
@[simp] theorem round_overhead (u : CompUnit) : u.round.overhead = u.overhead := rfl
@[simp] theorem round_t (u : CompUnit) : u.round.t = u.t + 1 := rfl

/-- Rounds touch only the window, the working variables and the round counter. -/
theorem rounds_frame (n : Nat) (u : CompUnit) :
    (rounds n u).chain = u.chain ∧ (rounds n u).next = u.next ∧ (rounds n u).cycle = u.cycle ∧
    (rounds n u).overhead = u.overhead := by
  induction n generalizing u with
  | zero => simp [rounds]
  | succ n ih => simp [rounds, ih]

@[simp] theorem rounds_chain (n : Nat) (u : CompUnit) : (rounds n u).chain = u.chain := (rounds_frame n u).1
@[simp] theorem rounds_next (n : Nat) (u : CompUnit) : (rounds n u).next = u.next := (rounds_frame n u).2.1
@[simp] theorem rounds_cycle (n : Nat) (u : CompUnit) : (rounds n u).cycle = u.cycle := (rounds_frame n u).2.2.1
@[simp] theorem rounds_overhead (n : Nat) (u : CompUnit) : (rounds n u).overhead = u.overhead :=
  (rounds_frame n u).2.2.2

/-- Rounds chained in order are the same rounds however they are grouped (spec/43_compression.md R223). -/
theorem rounds_add (m n : Nat) (u : CompUnit) : rounds (m + n) u = rounds n (rounds m u) := by
  induction m generalizing u with
  | zero => simp [rounds]
  | succ m ih => rw [Nat.succ_add]; exact ih u.round

theorem rounds_succ (n : Nat) (u : CompUnit) : rounds (n + 1) u = (rounds n u).round := by
  rw [rounds_add n 1]; rfl

/-- The round counter counts the rounds done. -/
theorem rounds_t (n : Nat) (u : CompUnit) (h : u.t.toNat + n < 128) :
    (rounds n u).t.toNat = u.t.toNat + n := by
  induction n with
  | zero => rfl
  | succ n ih =>
    rw [rounds_succ, round_t, BitVec.toNat_add, ih (by omega)]
    exact Nat.mod_eq_of_lt h

/-- Every form takes at least one clock cycle for a block. -/
theorem tBlock_pos (p : Config.Form) : 1 ≤ p.tBlock := by
  obtain ⟨r, q, _, _, _⟩ := p
  cases q <;> cases r <;> simp [Config.Form.tBlock, Config.RoundsPerCycle.count] <;> omega

/-- A cycle that is not the last of the command takes one off the cycles left; the last leaves none. -/
theorem cyclesLeft_clock (p : Config.Form) (u : CompUnit) (hc : u.cycle < p.tBlock) :
    ((u.clock p).2 = false ∧ (u.clock p).1.cyclesLeft p + 1 = u.cyclesLeft p ∧ (u.clock p).1.cycle < p.tBlock) ∨
    ((u.clock p).2 = true ∧ u.cyclesLeft p = 1) := by
  have hp := tBlock_pos p
  unfold clock
  split
  · left; simp [cyclesLeft]; omega
  · by_cases hl : u.lastCycle p = true
    · have hl' : p.tBlock ≤ u.cycle + 1 := by simpa [lastCycle] using hl
      match hn : u.next with
      | [] => right; simp [hl, cyclesLeft, hn]; omega
      | B :: rest =>
        left
        simp [hl, cyclesLeft, hn, load, Nat.add_mul]
        omega
    · have hl' : ¬ p.tBlock ≤ u.cycle + 1 := by simpa [lastCycle] using hl
      left
      simp [hl, cyclesLeft]
      omega

end Sys2Proof.Machine.CompUnit
end

