-- ==== Sys2Proof/Laws/Exec.lean ====
section
/-! SUPPORT. What any instruction can do, said once: `exec` always answers a next state, and that state is one of the shapes of
`Effect`. Claims about every instruction go through this and not through the fifty-four meanings. -/

namespace Sys2Proof.Machine

/-- The state changes an instruction can make, with what is known when it makes them. -/
inductive Effect : Instr → State → State → Prop
  | skip (s : State) : Effect .nop s s
  | clear (s : State) : Effect .clearErr s (clearError s)
  | value (i : Instr) (s : State) (v : Word) : isRead i → Effect i s (returnWord v s)
  | draw (i : Instr) (s : State) : isRead i → s.inflight ≠ .none → Effect i s (returnUnspec s)
  | error (i : Instr) (s : State) (c : ErrCode) : i ≠ .clearErr → Effect i s (raise c s)
  | data (s : State) (v : Word) : Effect (.wrData v) s { s with data := v }
  | hash (i : Instr) (s : State) (H : Hash) : writesContext i = true → s.inflight = .none → Effect i s { s with h := H }
  | length (i : Instr) (s : State) (n : BitVec 64) : writesContext i = true → s.inflight = .none →
      Effect i s { s with len := n }
  | level (v : Word) (s : State) (n : BitVec 6) : s.inflight = .none → Effect (.wrBuflen v) s { s with buflen := n }
  | bytes (n : BitVec 4) (v : Word) (s : State) : s.inflight = .none →
      Effect (.wrBuf n v) s { s with buf := putBufWord s.buf n v }
  | reset (s : State) : s.inflight = .none → Effect .reset s (resetEffect s)
  | update (i : Instr) (nb : Nat) (s : State) : IsUpdate i nb → Absorbing s → Effect i s (updateEffect nb s)
  | finalize (s : State) : Absorbing s → Effect .finalize s (finalizeEffect s)
  | finalizeReset (s : State) : Absorbing s → Effect .finalizeReset s (finalizeResetEffect s)

theorem effect_readContext {i : Instr} (v : Word) (s : State) (h : isRead i) : Effect i s (readContext v s) := by
  rcases readContext_cases v s with ⟨-, e⟩ | ⟨hb, e⟩ <;> rw [e]
  exacts [.value i s v h, .draw i s h hb]

theorem effect_readDigest {i : Instr} (v : Word) (s : State) (h : isRead i) : Effect i s (readDigest v s) := by
  rcases readDigest_cases v s with ⟨-, e⟩ | ⟨hb, e⟩ <;> rw [e]
  exacts [.value i s v h, .draw i s h (by rcases hb with hb | hb <;> rw [hb] <;> decide)]

theorem effect_writeContext {i : Instr} {f : State → State} {s : State} (hi : i ≠ .clearErr)
    (h : s.inflight = .none → Effect i s (f s)) : Effect i s (writeContext f s) := by
  rcases writeContext_cases f s with ⟨hn, e⟩ | ⟨-, e⟩ <;> rw [e]
  exacts [h hn, .error i s .busy hi]

theorem effect_acceptInAbsorb {i : Instr} {f : State → State} {s : State} (hi : i ≠ .clearErr)
    (h : Absorbing s → Effect i s (f s)) : Effect i s (acceptInAbsorb f s) := by
  rcases acceptInAbsorb_cases f s with ⟨hn, hf, e⟩ | ⟨-, e⟩ | ⟨-, -, e⟩ <;> rw [e]
  exacts [h ⟨hn, hf⟩, .error i s .busy hi, .error i s .afterFinal hi]

/-- Every command answers a next state, by one of the shapes. -/
theorem execCommand_effect (c : Command) (s : State) :
    ∃ t, execCommand c s = .next t ∧ Effect c.toInstr s t := by
  cases c with
  | nop => exact ⟨s, rfl, .skip s⟩
  | updateNb0to3 nb =>
    exact ⟨_, rfl, effect_acceptInAbsorb (by simp [Command.toInstr]) fun h => .update _ _ s (.inl ⟨nb, rfl, rfl⟩) h⟩
  | updateNb4 => exact ⟨_, rfl, effect_acceptInAbsorb (by simp [Command.toInstr]) fun h => .update _ _ s (.inr ⟨rfl, rfl⟩) h⟩
  | finalize => exact ⟨_, rfl, effect_acceptInAbsorb (by simp [Command.toInstr]) fun h => .finalize s h⟩
  | finalizeReset => exact ⟨_, rfl, effect_acceptInAbsorb (by simp [Command.toInstr]) fun h => .finalizeReset s h⟩
  | reset =>
    refine ⟨_, rfl, ?_⟩
    rcases acceptWhenIdle_cases resetEffect s with ⟨hn, e⟩ | ⟨-, e⟩ <;> rw [e]
    exacts [.reset s hn, .error _ s .busy (by simp [Command.toInstr])]
  | clearErr => exact ⟨_, rfl, .clear s⟩
  | badCmd w => exact ⟨_, rfl, .error _ s .badCmd (by simp [Command.toInstr])⟩

/-- A command instruction runs as the command does. -/
theorem exec_command (c : Command) (s : State) : exec c.toInstr s = execCommand c s := by
  cases c <;> rfl

/-- Every instruction answers a next state, by one of the shapes, for the instruction it issues. -/
theorem exec_effect (i : Instr) (s : State) : ∃ t, exec i s = .next t ∧ Effect (issued i) s t := by
  cases i
  case wrCmd v => exact execCommand_effect (decodeCommand v) s
  case nop => exact execCommand_effect .nop s
  case updateNb0to3 nb => exact execCommand_effect (.updateNb0to3 nb) s
  case updateNb4 => exact execCommand_effect .updateNb4 s
  case finalize => exact execCommand_effect .finalize s
  case finalizeReset => exact execCommand_effect .finalizeReset s
  case reset => exact execCommand_effect .reset s
  case clearErr => exact execCommand_effect .clearErr s
  case badCmd w => exact execCommand_effect (.badCmd w) s
  case wrData v => exact ⟨_, rfl, .data s v⟩
  case wrBuflen v =>
    refine ⟨_, rfl, ?_⟩
    simp only [issued]
    split
    · exact .error _ s .badValue (by simp)
    · exact effect_writeContext (by simp) fun h => .level v s _ h
  case wrBuf n v => exact ⟨_, rfl, effect_writeContext (by simp [issued]) fun h => .bytes n v s h⟩
  case wrLenLo v | wrLenHi v =>
    exact ⟨_, rfl, effect_writeContext (by simp [issued]) fun h => .length _ s _ rfl h⟩
  case wrH0 v | wrH1 v | wrH2 v | wrH3 v | wrH4 v =>
    exact ⟨_, rfl, effect_writeContext (by simp [issued]) fun h => .hash _ s _ rfl h⟩
  case rdDigest0 | rdDigest1 | rdDigest2 | rdDigest3 | rdDigest4 =>
    exact ⟨_, rfl, effect_readDigest _ s (by simp [issued, isRead, readsDigest])⟩
  case rdH0 | rdH1 | rdH2 | rdH3 | rdH4 | rdLenLo | rdLenHi | rdBuflen =>
    exact ⟨_, rfl, effect_readContext _ s (by simp [issued, isRead, readsContext])⟩
  case rdBuf n => exact ⟨_, rfl, effect_readContext _ s (by simp [issued, isRead, readsContext])⟩
  case rdInfo | rdCmd | rdData | rdStatus =>
    exact ⟨_, rfl, .value _ s _ (by simp [issued, isRead])⟩
  case rdReserved9 => exact ⟨_, rfl, .value _ s _ (by simp [issued, isRead, readsReserved])⟩
  case rdReserved10to11 k | rdReserved12to15 k | rdReserved24to31 k | rdReserved48to63 k =>
    exact ⟨_, rfl, .value _ s _ (by simp [issued, isRead, readsReserved])⟩
  all_goals exact ⟨_, rfl, .error _ s .badAddr (by simp [issued])⟩

/-- The state after an instruction is the one `exec` answers. -/
theorem exec_after (i : Instr) (s : State) : exec i s = .next (after i s) := by
  obtain ⟨t, h, -⟩ := exec_effect i s
  simp [after, h]

/-- A next state of `exec` has one of the shapes. -/
theorem effect_of_exec {i : Instr} {s t : State} (h : exec i s = .next t) : Effect (issued i) s t := by
  obtain ⟨u, hu, he⟩ := exec_effect i s
  rw [h] at hu
  cases hu
  exact he

end Sys2Proof.Machine
end

