-- ==== Sys2Proof/Laws/HostSide.lean ====
section
/-! SUPPORT. What the host's side can do to the core, said once for each operation: the pin, an access in reset, a POLL, and the
placing of an instruction. -/

namespace Sys2Proof.Machine

/-- BUSY stands in bit 0 of STATUS. -/
theorem status_bit0 (s : State) : s.status.getLsbD 0 = s.busy := by
  simp only [State.status, BitVec.getLsbD_append]
  cases s.busy <;> rfl

/-- The pin resets the core, but for a level of 1 on a core that runs. -/
theorem setRstN_cases (level : Bool) (s : State) :
    (level = true ∧ s.rstN = true ∧ setRstN level s = s) ∨
    ((level = false ∨ s.rstN = false) ∧ setRstN level s = { hardwareReset s with rstN := level }) := by
  cases level <;> cases h : s.rstN <;> simp [setRstN, h]

/-- An access in reset touches the read data only. -/
theorem ignoredAccess_eq (c : Code) (s : State) :
    ignoredAccess c s = { s with rdata := (ignoredAccess c s).rdata } := by
  cases c with
  | cmd v => rfl
  | bus op v => cases h : weField op <;> simp [ignoredAccess, h, returnWord]

/-- A POLL of a busy core reads STATUS and comes again. -/
theorem pollOnce_busy {s : State} (hr : s.rstN = true) (hb : s.busy = true) :
    pollOnce s = { s with rdata := some s.status, pending := .poll :: s.pending } := by
  have h := status_bit0 s
  rw [hb] at h
  simp only [pollOnce, hr, if_true, h, returnWord]

/-- A POLL of an idle core reads STATUS and is over. -/
theorem pollOnce_idle {s : State} (hr : s.rstN = true) (hb : s.busy = false) :
    pollOnce s = { s with rdata := some s.status } := by
  have h := status_bit0 s
  rw [hb] at h
  simp only [pollOnce, hr, if_true, h, returnWord]
  rfl

/-- A POLL of a core in reset reads 0 and is over. -/
theorem pollOnce_reset {s : State} (hr : s.rstN = false) : pollOnce s = { s with rdata := some 0 } := by
  simp [pollOnce, hr, returnWord]

/-- The placing of an instruction, where the number lays one out. -/
theorem withFetchWord_some {nbits w : Nat} {c : Code} (s : State) (h : codeOfTableWord nbits w = some c) :
    s.withFetchWord nbits w =
      { s with pending := .access c :: s.pending, engineWait := s.engineWait + 1, rstN := true } := by
  simp [State.withFetchWord, h]

/-- Where it lays none out, nothing is placed. -/
theorem withFetchWord_none {nbits w : Nat} (s : State) (h : codeOfTableWord nbits w = none) :
    s.withFetchWord nbits w = s := by
  simp [State.withFetchWord, h]

end Sys2Proof.Machine
end

