-- ==== Sys2Proof/Laws/PerInstr.lean ====
section
/-! SUPPORT. Statements about every instruction as syntax, one lemma per constructor. The family `TableRow`: the encoding of an
instruction lies in the row that spec/opcode_table.json gives it. -/

namespace Sys2Proof.Laws.TableRow

/-- A command word lies in the CMD32 row of a mask and a match. -/
def InCommandRow (mask row : Word) : Code → Prop
  | .cmd v => v &&& mask = row
  | .bus _ _ => False

/-- A bus operation lies in the BUS7 row of a mask and a match. -/
def InBusRow (mask row : BitVec 7) : Code → Prop
  | .cmd _ => False
  | .bus op _ => op &&& mask = row

/-- The row of each instruction, mask and match as the table has them. BAD_CMD has no mask: its row is every command word that no row
above it matches. -/
def Statement (i : Instr) : Prop :=
  match i with
  | .nop => InCommandRow 0xFFFFFFFF 0x00000000 (encode i)
  | .updateNb0to3 _ => InCommandRow 0xFFFFFFCF 0x00000001 (encode i)
  | .updateNb4 => InCommandRow 0xFFFFFFFF 0x00000041 (encode i)
  | .finalize => InCommandRow 0xFFFFFFFF 0x00000002 (encode i)
  | .finalizeReset => InCommandRow 0xFFFFFFFF 0x00000003 (encode i)
  | .reset => InCommandRow 0xFFFFFFFF 0x00000004 (encode i)
  | .clearErr => InCommandRow 0xFFFFFFFF 0x00000005 (encode i)
  | .badCmd w => encode i = .cmd w ∧ (i.wellFormed = true ↔ w ∉ commandWords)
  | .rdInfo => InBusRow 0x7F 0x00 (encode i)
  | .rdCmd => InBusRow 0x7F 0x01 (encode i)
  | .rdData => InBusRow 0x7F 0x02 (encode i)
  | .rdStatus => InBusRow 0x7F 0x03 (encode i)
  | .rdDigest0 => InBusRow 0x7F 0x04 (encode i)
  | .rdDigest1 => InBusRow 0x7F 0x05 (encode i)
  | .rdDigest2 => InBusRow 0x7F 0x06 (encode i)
  | .rdDigest3 => InBusRow 0x7F 0x07 (encode i)
  | .rdDigest4 => InBusRow 0x7F 0x08 (encode i)
  | .rdH0 => InBusRow 0x7F 0x10 (encode i)
  | .rdH1 => InBusRow 0x7F 0x11 (encode i)
  | .rdH2 => InBusRow 0x7F 0x12 (encode i)
  | .rdH3 => InBusRow 0x7F 0x13 (encode i)
  | .rdH4 => InBusRow 0x7F 0x14 (encode i)
  | .rdLenLo => InBusRow 0x7F 0x15 (encode i)
  | .rdLenHi => InBusRow 0x7F 0x16 (encode i)
  | .rdBuflen => InBusRow 0x7F 0x17 (encode i)
  | .rdBuf _ => InBusRow 0x70 0x20 (encode i)
  | .rdReserved9 => InBusRow 0x7F 0x09 (encode i)
  | .rdReserved10to11 _ => InBusRow 0x7E 0x0A (encode i)
  | .rdReserved12to15 _ => InBusRow 0x7C 0x0C (encode i)
  | .rdReserved24to31 _ => InBusRow 0x78 0x18 (encode i)
  | .rdReserved48to63 _ => InBusRow 0x70 0x30 (encode i)
  | .wrInfo _ => InBusRow 0x7F 0x40 (encode i)
  | .wrCmd _ => InBusRow 0x7F 0x41 (encode i)
  | .wrData _ => InBusRow 0x7F 0x42 (encode i)
  | .wrStatus _ => InBusRow 0x7F 0x43 (encode i)
  | .wrDigest0 _ => InBusRow 0x7F 0x44 (encode i)
  | .wrDigest1 _ => InBusRow 0x7F 0x45 (encode i)
  | .wrDigest2 _ => InBusRow 0x7F 0x46 (encode i)
  | .wrDigest3 _ => InBusRow 0x7F 0x47 (encode i)
  | .wrDigest4 _ => InBusRow 0x7F 0x48 (encode i)
  | .wrH0 _ => InBusRow 0x7F 0x50 (encode i)
  | .wrH1 _ => InBusRow 0x7F 0x51 (encode i)
  | .wrH2 _ => InBusRow 0x7F 0x52 (encode i)
  | .wrH3 _ => InBusRow 0x7F 0x53 (encode i)
  | .wrH4 _ => InBusRow 0x7F 0x54 (encode i)
  | .wrLenLo _ => InBusRow 0x7F 0x55 (encode i)
  | .wrLenHi _ => InBusRow 0x7F 0x56 (encode i)
  | .wrBuflen _ => InBusRow 0x7F 0x57 (encode i)
  | .wrBuf _ _ => InBusRow 0x70 0x60 (encode i)
  | .wrReserved9 _ => InBusRow 0x7F 0x49 (encode i)
  | .wrReserved10to11 _ _ => InBusRow 0x7E 0x4A (encode i)
  | .wrReserved12to15 _ _ => InBusRow 0x7C 0x4C (encode i)
  | .wrReserved24to31 _ _ => InBusRow 0x78 0x58 (encode i)
  | .wrReserved48to63 _ _ => InBusRow 0x70 0x70 (encode i)

/-! ## One lemma per constructor -/

theorem nop : Statement .nop := rfl
theorem updateNb0to3 (nb : BitVec 2) : Statement (.updateNb0to3 nb) := by
  simp only [Statement, InCommandRow, encode, commandWord]; revert nb; decide
theorem updateNb4 : Statement .updateNb4 := rfl
theorem finalize : Statement .finalize := rfl
theorem finalizeReset : Statement .finalizeReset := rfl
theorem reset : Statement .reset := rfl
theorem clearErr : Statement .clearErr := rfl
theorem badCmd (w : Word) : Statement (.badCmd w) := by
  simp [Statement, encode, Instr.wellFormed]
theorem rdInfo : Statement .rdInfo := rfl
theorem rdCmd : Statement .rdCmd := rfl
theorem rdData : Statement .rdData := rfl
theorem rdStatus : Statement .rdStatus := rfl
theorem rdDigest0 : Statement .rdDigest0 := rfl
theorem rdDigest1 : Statement .rdDigest1 := rfl
theorem rdDigest2 : Statement .rdDigest2 := rfl
theorem rdDigest3 : Statement .rdDigest3 := rfl
theorem rdDigest4 : Statement .rdDigest4 := rfl
theorem rdH0 : Statement .rdH0 := rfl
theorem rdH1 : Statement .rdH1 := rfl
theorem rdH2 : Statement .rdH2 := rfl
theorem rdH3 : Statement .rdH3 := rfl
theorem rdH4 : Statement .rdH4 := rfl
theorem rdLenLo : Statement .rdLenLo := rfl
theorem rdLenHi : Statement .rdLenHi := rfl
theorem rdBuflen : Statement .rdBuflen := rfl
theorem rdBuf (n : BitVec 4) : Statement (.rdBuf n) := by
  simp only [Statement, InBusRow, encode, readCode]; revert n; decide
theorem rdReserved9 : Statement .rdReserved9 := rfl
theorem rdReserved10to11 (k : BitVec 1) : Statement (.rdReserved10to11 k) := by
  simp only [Statement, InBusRow, encode, readCode]; revert k; decide
theorem rdReserved12to15 (k : BitVec 2) : Statement (.rdReserved12to15 k) := by
  simp only [Statement, InBusRow, encode, readCode]; revert k; decide
theorem rdReserved24to31 (k : BitVec 3) : Statement (.rdReserved24to31 k) := by
  simp only [Statement, InBusRow, encode, readCode]; revert k; decide
theorem rdReserved48to63 (k : BitVec 4) : Statement (.rdReserved48to63 k) := by
  simp only [Statement, InBusRow, encode, readCode]; revert k; decide
theorem wrInfo (v : Word) : Statement (.wrInfo v) := rfl
theorem wrCmd (v : Word) : Statement (.wrCmd v) := rfl
theorem wrData (v : Word) : Statement (.wrData v) := rfl
theorem wrStatus (v : Word) : Statement (.wrStatus v) := rfl
theorem wrDigest0 (v : Word) : Statement (.wrDigest0 v) := rfl
theorem wrDigest1 (v : Word) : Statement (.wrDigest1 v) := rfl
theorem wrDigest2 (v : Word) : Statement (.wrDigest2 v) := rfl
theorem wrDigest3 (v : Word) : Statement (.wrDigest3 v) := rfl
theorem wrDigest4 (v : Word) : Statement (.wrDigest4 v) := rfl
theorem wrH0 (v : Word) : Statement (.wrH0 v) := rfl
theorem wrH1 (v : Word) : Statement (.wrH1 v) := rfl
theorem wrH2 (v : Word) : Statement (.wrH2 v) := rfl
theorem wrH3 (v : Word) : Statement (.wrH3 v) := rfl
theorem wrH4 (v : Word) : Statement (.wrH4 v) := rfl
theorem wrLenLo (v : Word) : Statement (.wrLenLo v) := rfl
theorem wrLenHi (v : Word) : Statement (.wrLenHi v) := rfl
theorem wrBuflen (v : Word) : Statement (.wrBuflen v) := rfl
theorem wrBuf (n : BitVec 4) (v : Word) : Statement (.wrBuf n v) := by
  simp only [Statement, InBusRow, encode, writeCode]; revert n; decide
theorem wrReserved9 (v : Word) : Statement (.wrReserved9 v) := rfl
theorem wrReserved10to11 (k : BitVec 1) (v : Word) : Statement (.wrReserved10to11 k v) := by
  simp only [Statement, InBusRow, encode, writeCode]; revert k; decide
theorem wrReserved12to15 (k : BitVec 2) (v : Word) : Statement (.wrReserved12to15 k v) := by
  simp only [Statement, InBusRow, encode, writeCode]; revert k; decide
theorem wrReserved24to31 (k : BitVec 3) (v : Word) : Statement (.wrReserved24to31 k v) := by
  simp only [Statement, InBusRow, encode, writeCode]; revert k; decide
theorem wrReserved48to63 (k : BitVec 4) (v : Word) : Statement (.wrReserved48to63 k v) := by
  simp only [Statement, InBusRow, encode, writeCode]; revert k; decide

end Sys2Proof.Laws.TableRow
end

