-- ==== Sys2Proof/Tests/Slice0.lean ====
section
/-! SUPPORT. The model's own tests. Expected values are the spec's: encodings from spec/30_encoding.md and spec/20_memory.md R61,
results from spec/95_test_vectors.md. Then one witness for each statement with hypotheses, and for each of its clauses. -/

namespace Sys2Proof.Machine.Tests

/-! ## States the tests start from -/

/-- After `UPDS "abc"` from reset, as far as the registers go (spec/95_test_vectors.md section 5). -/
def abc : State := { State.reset with len := 3, buflen := 3, buf := putBytes State.reset.buf 0 [0x61, 0x62, 0x63] }

/-- 62 bytes 'a' taken, and the next beat in DATA (spec/95_test_vectors.md section 4.2). -/
def nearlyFull : State :=
  { State.reset with len := 62, buflen := 62, buf := putBytes State.reset.buf 0 (List.replicate 62 0x61), data := 0x62636465 }

/-- An UPDATE in flight. -/
def updating : State := { State.reset with inflight := .upd }

/-- A FINALIZE in flight. -/
def finalizing : State := { State.reset with inflight := .fin, final := true }

/-- A completed FINALIZE: STATUS = 0x00000006. -/
def finalized : State := { State.reset with final := true, dvalid := true }

/-- An error shown and recorded: STATUS = 0x00000028. -/
def faulty : State := { State.reset with err := true, errcode := 2, faults := [.badCmd] }

/-! ## Encodings -/

/-- The fields OP [3:0] and NB [6:4], written out bit by bit (spec/30_encoding.md R91, R92, R102). -/
theorem test_decode_commands :
    decode (.cmd 0b0000000) = .nop ∧ decode (.cmd 0b0000001) = .updateNb0to3 0 ∧
    decode (.cmd 0b0110001) = .updateNb0to3 3 ∧ decode (.cmd 0b1000001) = .updateNb4 ∧
    decode (.cmd 0b0000010) = .finalize ∧ decode (.cmd 0b0000011) = .finalizeReset ∧
    decode (.cmd 0b0000100) = .reset ∧ decode (.cmd 0b0000101) = .clearErr := by decide

/-- The words of spec/95_test_vectors.md section 6 that are no command. -/
theorem test_decode_bad_commands :
    decode (.cmd 0x00000006) = .badCmd 0x00000006 ∧ decode (.cmd 0x0000000F) = .badCmd 0x0000000F ∧
    decode (.cmd 0x00000051) = .badCmd 0x00000051 ∧ decode (.cmd 0x00000071) = .badCmd 0x00000071 ∧
    decode (.cmd 0x00000012) = .badCmd 0x00000012 ∧ decode (.cmd 0x00000081) = .badCmd 0x00000081 ∧
    decode (.cmd 0x80000000) = .badCmd 0x80000000 := by decide

/-- The reads of indices 0 to 15. -/
theorem test_decode_reads_low :
    decode (.bus 0b0000000 0) = .rdInfo ∧ decode (.bus 0b0000001 0) = .rdCmd ∧ decode (.bus 0b0000010 0) = .rdData ∧
    decode (.bus 0b0000011 0) = .rdStatus ∧ decode (.bus 0b0000100 0) = .rdDigest0 ∧
    decode (.bus 0b0000101 0) = .rdDigest1 ∧ decode (.bus 0b0000110 0) = .rdDigest2 ∧
    decode (.bus 0b0000111 0) = .rdDigest3 ∧ decode (.bus 0b0001000 0) = .rdDigest4 ∧
    decode (.bus 0b0001001 0) = .rdReserved9 ∧ decode (.bus 0b0001010 0) = .rdReserved10to11 0 ∧
    decode (.bus 0b0001110 0) = .rdReserved12to15 2 := by decide

/-- The reads of indices 16 to 63. -/
theorem test_decode_reads_high :
    decode (.bus 0b0010000 0) = .rdH0 ∧ decode (.bus 0b0010001 0) = .rdH1 ∧ decode (.bus 0b0010010 0) = .rdH2 ∧
    decode (.bus 0b0010011 0) = .rdH3 ∧ decode (.bus 0b0010100 0) = .rdH4 ∧ decode (.bus 0b0010101 0) = .rdLenLo ∧
    decode (.bus 0b0010110 0) = .rdLenHi ∧ decode (.bus 0b0010111 0) = .rdBuflen ∧
    decode (.bus 0b0011111 0) = .rdReserved24to31 7 ∧ decode (.bus 0b0100001 0) = .rdBuf 1 ∧
    decode (.bus 0b0110000 0) = .rdReserved48to63 0 := by decide

/-- The writes of indices 0 to 15. -/
theorem test_decode_writes_low :
    decode (.bus 0b1000000 9) = .wrInfo 9 ∧ decode (.bus 0b1000001 9) = .wrCmd 9 ∧ decode (.bus 0b1000010 9) = .wrData 9 ∧
    decode (.bus 0b1000011 9) = .wrStatus 9 ∧ decode (.bus 0b1000100 9) = .wrDigest0 9 ∧
    decode (.bus 0b1000101 9) = .wrDigest1 9 ∧ decode (.bus 0b1000110 9) = .wrDigest2 9 ∧
    decode (.bus 0b1000111 9) = .wrDigest3 9 ∧ decode (.bus 0b1001000 9) = .wrDigest4 9 ∧
    decode (.bus 0b1001001 9) = .wrReserved9 9 ∧ decode (.bus 0b1001011 9) = .wrReserved10to11 1 9 ∧
    decode (.bus 0b1001101 9) = .wrReserved12to15 1 9 := by decide

/-- The writes of indices 16 to 63. -/
theorem test_decode_writes_high :
    decode (.bus 0b1010000 9) = .wrH0 9 ∧ decode (.bus 0b1010001 9) = .wrH1 9 ∧ decode (.bus 0b1010010 9) = .wrH2 9 ∧
    decode (.bus 0b1010011 9) = .wrH3 9 ∧ decode (.bus 0b1010100 9) = .wrH4 9 ∧ decode (.bus 0b1010101 9) = .wrLenLo 9 ∧
    decode (.bus 0b1010110 9) = .wrLenHi 9 ∧ decode (.bus 0b1010111 9) = .wrBuflen 9 ∧
    decode (.bus 0b1011000 9) = .wrReserved24to31 0 9 ∧ decode (.bus 0b1101110 9) = .wrBuf 14 9 ∧
    decode (.bus 0b1111111 9) = .wrReserved48to63 15 9 := by decide

/-- Numbers laid out as the opcode table numbers bits; a set bit 7 of a bus operation lays out nothing. -/
theorem test_table_words :
    decodeTableWord 32 0x00000041 = some .updateNb4 ∧ decodeTableWord 8 0x10 = some .rdH0 ∧
    decodeTableWord 7 0x10 = some .rdH0 ∧ decodeTableWord 40 0x6162630042 = some (.wrData 0x61626300) ∧
    decodeTableWord 8 0x80 = none := by decide

/-- WellFormed refuses a BAD_CMD that holds a command's word, and takes one that does not. -/
theorem test_ill_formed :
    (Instr.badCmd 0x00000041).wellFormed = false ∧ (Instr.badCmd 0x00000000).wellFormed = false ∧
    (Instr.badCmd 0x00000051).wellFormed = true := by decide

/-! ## Values -/

/-- spec/95_test_vectors.md section 2.1. -/
theorem test_rotl :
    rotl 0x80000001 1 = 0x00000003 ∧ rotl 0x12345678 5 = 0x468ACF02 ∧ rotl 0xDEADBEEF 30 = 0xF7AB6FBB := by decide

/-- spec/95_test_vectors.md section 2.2: the second line of the table, at the first round of each group. -/
theorem test_round_functions :
    roundFunction 0 0x12345678 0x9ABCDEF0 0x0FEDCBA9 = 0x1FFDDFF1 ∧
    roundFunction 20 0x12345678 0x9ABCDEF0 0x0FEDCBA9 = 0x87654321 ∧
    roundFunction 40 0x12345678 0x9ABCDEF0 0x0FEDCBA9 = 0x1ABCDEF8 ∧
    roundFunction 60 0x12345678 0x9ABCDEF0 0x0FEDCBA9 = 0x87654321 := by decide

/-- spec/95_test_vectors.md section 2.3: round 0 of the "abc" block. -/
theorem test_round_zero :
    roundStep 0 0x61626380 (Working.ofHash iv) = ⟨0x0116FC33, 0x67452301, 0x7BF36AE2, 0x98BADCFE, 0x10325476⟩ := by decide

/-- spec/95_test_vectors.md section 4.1. -/
theorem test_beat_bytes :
    beatBytes 3 0x61626364 = [0x61, 0x62, 0x63] ∧ beatBytes 1 0x00000061 = [0x00] ∧ beatBytes 0 0x61626364 = [] := by decide

/-- spec/95_test_vectors.md section 3.3: a compression that starts from another H than the IV. -/
theorem test_compress_zero :
    compress ⟨0, 0, 0, 0, 0⟩ (Vector.replicate 64 0) =
      ⟨0x9E1547ED, 0x57EC91C2, 0x30FA8BC8, 0xC7785A54, 0xA7EFA5E3⟩ := by decide +kernel

/-! ## Instructions -/

theorem test_nop : after .nop updating = updating := by decide

/-- spec/95_test_vectors.md section 4.1: BUF0 reads 61626300 and BUFLEN reads 3. -/
theorem test_update_three :
    let t := after (.updateNb0to3 3) { State.reset with data := 0x61626300 }
    (after (.rdBuf 0) t).rdata = some 0x61626300 ∧ t.buflen = 3 ∧ t.len = 3 ∧ t.status = 0 := by decide

/-- spec/95_test_vectors.md section 4.2, the last line but one on LEN: it wraps, with no error. -/
theorem test_update_wraps :
    let t := after (.updateNb0to3 1) { State.reset with len := 0xFFFFFFFFFFFFFFFF, data := 0x61000000 }
    t.len = 0 ∧ t.buflen = 1 ∧ t.err = false := by decide

/-- spec/95_test_vectors.md section 4.2: a beat across a block boundary; 'd', 'e' and two stale bytes in BUF0. -/
theorem test_update_across_a_block :
    let t := complete (after .updateNb4 nearlyFull)
    (after .updateNb4 nearlyFull).status = 1 ∧ t.buflen = 2 ∧ t.len = 66 ∧
    bufWord t.buf 0 = 0x64656161 ∧ bufWord t.buf 15 = 0x61616263 := by decide +kernel

/-- The state H of the same vector. -/
theorem test_update_compresses :
    (after .updateNb4 nearlyFull).h = ⟨0x95F83CE1, 0x472A21DB, 0x8A6DCE41, 0x45A4587E, 0x116C0E7B⟩ := by decide +kernel

/-- spec/95_test_vectors.md section 4.5: FINALIZE of "abc". -/
theorem test_finalize_abc :
    (after .finalize abc).digest = ⟨0xA9993E36, 0x4706816A, 0xBA3E2571, 0x7850C26C, 0x9CD0D89D⟩ := by decide +kernel

theorem test_finalize_abc_state :
    let t := after .finalize abc
    t.status = 5 ∧ (complete t).status = 6 ∧ t.len = 3 ∧ t.buflen = 0 ∧ bufWord t.buf 0 = 0x61626380 ∧
    bufWord t.buf 15 = 0x00000018 := by decide +kernel

/-- spec/95_test_vectors.md section 4.5: FINALIZE_RESET ends in the IV, ready for a message. -/
theorem test_finalize_reset :
    let t := after .finalizeReset abc
    t.status = 1 ∧ (complete t).status = 2 ∧ t.h = iv ∧ t.len = 0 ∧ t.buflen = 0 := by decide

/-- spec/95_test_vectors.md section 4.4: 'a' 56 times needs two blocks. -/
theorem test_two_padding_blocks :
    let bs := padBlocks 56 56 (Vector.replicate 64 0x61)
    bs.length = 2 ∧ (bs.map fun b => bufWord b 13) = [0x61616161, 0] ∧ (bs.map fun b => bufWord b 14) = [0x80000000, 0] ∧
    (bs.map fun b => bufWord b 15) = [0, 0x000001C0] := by decide +kernel

/-- spec/95_test_vectors.md section 4.2: RESET keeps the buffer's bytes. -/
theorem test_reset :
    let t := after .reset { abc with final := true }
    t.h = iv ∧ t.len = 0 ∧ t.buflen = 0 ∧ t.final = false ∧ bufWord t.buf 0 = 0x61626300 := by decide

theorem test_reset_while_busy : (after .reset updating).status = 0x19 := by decide

theorem test_clear_err : (after .clearErr faulty).status = 0 ∧ (after .clearErr faulty).faults = [.badCmd] := by decide

/-- spec/95_test_vectors.md section 6: BAD_CMD comes before BUSY, and the first code is kept. -/
theorem test_bad_cmd :
    (after (.wrCmd 0x00000007) updating).status = 0x29 ∧
    (after (.badCmd 6) (after .finalize finalized)).status = 0x3E := by decide

/-- spec/95_test_vectors.md section 6: BUSY before AFTER_FINAL; AFTER_FINAL once complete. -/
theorem test_after_final :
    (after (.updateNb0to3 1) finalizing).status = 0x1D ∧ (after (.updateNb0to3 1) finalized).status = 0x3E ∧
    (after .finalizeReset finalized).status = 0x3E := by decide

/-- spec/95_test_vectors.md section 5: the first line of the table. -/
theorem test_constant_reads :
    (after .rdInfo State.reset).rdata = some 0x00004014 ∧ (after .rdCmd faulty).rdata = some 0 ∧
    (after .rdReserved9 faulty).rdata = some 0 ∧ (after (.rdReserved48to63 15) faulty).rdata = some 0 := by decide

theorem test_rd_status : (after .rdStatus finalizing).rdata = some 5 ∧ (after .rdStatus faulty).rdata = some 0x28 := by decide

/-- spec/95_test_vectors.md section 5: RD H0 to RD H4 after reset. -/
theorem test_rd_hash :
    (after .rdH0 State.reset).rdata = some 0x67452301 ∧ (after .rdH1 State.reset).rdata = some 0xEFCDAB89 ∧
    (after .rdH2 State.reset).rdata = some 0x98BADCFE ∧ (after .rdH3 State.reset).rdata = some 0x10325476 ∧
    (after .rdH4 State.reset).rdata = some 0xC3D2E1F0 := by decide

/-- spec/20_memory.md R70: the halves of LEN. -/
theorem test_rd_len :
    let s := { State.reset with len := 0x2000000000000003 }
    (after .rdLenLo s).rdata = some 0x00000003 ∧ (after .rdLenHi s).rdata = some 0x20000000 := by decide

/-- The digest registers in their order. -/
theorem test_rd_digest :
    let s := { updating with digest := ⟨1, 2, 3, 4, 5⟩ }
    (after .rdDigest0 s).rdata = some 1 ∧ (after .rdDigest1 s).rdata = some 2 ∧ (after .rdDigest2 s).rdata = some 3 ∧
    (after .rdDigest3 s).rdata = some 4 ∧ (after .rdDigest4 s).rdata = some 5 := by decide

/-- Two reads of H0 in flight draw twice; whatever they return, nothing else changes. -/
theorem test_unspec_reads :
    let t := after .rdH0 (after .rdH0 updating)
    t.draws = 2 ∧ { t with rdata := none, draws := 0 } = updating := ⟨rfl, rfl⟩

theorem test_wr_data_while_busy : after (.wrData 5) updating = { updating with data := 5 } := by decide

/-- spec/95_test_vectors.md section 5: a context write is refused in flight, accepted after FINALIZE. -/
theorem test_wr_h0 :
    (after (.wrH0 0) updating).status = 0x19 ∧ (after (.wrH0 0) updating).h = iv ∧ (after (.wrH0 0) finalized).status = 6 ∧
    (after (.wrH0 0) finalized).h = ⟨0, 0xEFCDAB89, 0x98BADCFE, 0x10325476, 0xC3D2E1F0⟩ := by decide

theorem test_wr_h1_to_h4 :
    (after (.wrH4 4) (after (.wrH3 3) (after (.wrH2 2) (after (.wrH1 1) State.reset)))).h = ⟨0x67452301, 1, 2, 3, 4⟩ := by
  decide

theorem test_wr_len :
    (after (.wrLenHi 0x20000000) (after (.wrLenLo 3) State.reset)).len = 0x2000000000000003 := by decide

/-- spec/95_test_vectors.md section 6: BAD_VALUE, and its priority over BUSY; 63 is the largest value. -/
theorem test_wr_buflen :
    (after (.wrBuflen 0x40) State.reset).status = 0x48 ∧ (after (.wrBuflen 0x40) updating).status = 0x49 ∧
    (after (.wrBuflen 0x3F) State.reset).buflen = 63 := by decide

/-- spec/20_memory.md R68: the first byte is the most significant lane. -/
theorem test_wr_buf :
    let t := after (.wrBuf 15 0x61626364) State.reset
    byteAt t.buf 59 = 0 ∧ byteAt t.buf 60 = 0x61 ∧ byteAt t.buf 63 = 0x64 := by decide

/-- spec/95_test_vectors.md section 6: BAD_ADDR. -/
theorem test_bad_addr :
    ∀ i ∈ [Instr.wrInfo 0, .wrStatus 0, .wrDigest0 0, .wrDigest4 0, .wrReserved9 0, .wrReserved48to63 15 0],
      (after i State.reset).status = 0x58 := by decide

/-! ## Steps -/

/-- A read placed by `withFetchWord` runs in the next step, also while a command is in flight whose turn it is. -/
theorem test_step_reads :
    step (State.reset.withFetchWord 8 0x10) = .next { State.reset with rdata := some 0x67452301 } ∧
    step (updating.withFetchWord 8 0x03) = .next { updating with rdata := some 1 } := ⟨rfl, rfl⟩

theorem test_step_command :
    step (State.reset.withFetchWord 32 0x06) = .next (raise .badCmd State.reset) := rfl

/-- A POLL of an idle core is over in one step. -/
theorem test_step_poll :
    step { State.reset with pending := [.poll] } = .next { State.reset with rdata := some 0 } := rfl

/-- spec/70_reset_and_hazards.md R281: reset drops what is in flight. -/
theorem test_step_reset_pin :
    step { updating with pending := [.rst false], engineWait := 1, len := 7 } =
      .next { State.reset with rstN := false } := rfl

/-! ## Witnesses: states and operands that meet the hypotheses of each statement -/

/-- DecodeOfEncodeIsTheInstruction. -/
theorem witness_decode_of_encode :
    (Instr.badCmd 0xFFFFFFFF).wellFormed = true ∧ (Instr.wrBuf 15 7).wellFormed = true ∧
    (Instr.updateNb0to3 3).wellFormed = true := by decide

/-- IllegalBusWritesAreTheBadAddresses: its clauses at the ends of the ranges of indices. -/
theorem witness_bus_writes :
    (after (decode (.bus 0b1000000 0)) State.reset).faults = [.badAddr] ∧
    (after (decode (.bus 0b1000001 0)) State.reset).faults = [] ∧
    (after (decode (.bus 0b1000010 0)) State.reset).faults = [] ∧
    (after (decode (.bus 0b1000011 0)) State.reset).faults = [.badAddr] ∧
    (after (decode (.bus 0b1001111 0)) State.reset).faults = [.badAddr] ∧
    (after (decode (.bus 0b1010000 0)) State.reset).faults = [] ∧
    (after (decode (.bus 0b1010111 0)) State.reset).faults = [] ∧
    (after (decode (.bus 0b1011000 0)) State.reset).faults = [.badAddr] ∧
    (after (decode (.bus 0b1011111 0)) State.reset).faults = [.badAddr] ∧
    (after (decode (.bus 0b1100000 0)) State.reset).faults = [] ∧
    (after (decode (.bus 0b1101111 0)) State.reset).faults = [] ∧
    (after (decode (.bus 0b1110000 0)) State.reset).faults = [.badAddr] ∧
    (after (decode (.bus 0b1111111 0)) State.reset).faults = [.badAddr] ∧
    (after (decode (.bus 0b0111111 0)) State.reset).faults = [] := by decide

/-- A core with an access waiting, idle or in flight with its engine's wait running. -/
def waiting (c : Code) : State := { updating with pending := [.access c], engineWait := 1 }

/-- StepRunsTheDecodedAccess. -/
theorem witness_step_runs :
    (waiting (.cmd 0)).pending = .access (.cmd 0) :: [] ∧ (waiting (.cmd 0)).engineTurn = false ∧
    (waiting (.cmd 0)).rstN = true := by decide

/-- FetchedWordRunsNext: a command word, a read, a write with its value. -/
theorem witness_fetched_word :
    decodeTableWord 32 0x02 = some .finalize ∧ decodeTableWord 8 0x3F = some (.rdReserved48to63 15) ∧
    decodeTableWord 40 0x0000003F57 = some (.wrBuflen 0x3F) := by decide

/-- DigestReads, ContextReads, BufferWordReads, and the clauses of the context writes. -/
theorem witness_idle_and_in_flight :
    State.reset.inflight = .none ∧ updating.inflight = .upd ∧ updating.inflight ≠ .none ∧
    finalizing.inflight ≠ .none := by decide

/-- ReadsInFlightAreFreshDraws and ReadsHaveNoSideEffects: an open read of each kind, reads that are not open, a reserved one. -/
theorem witness_reads :
    isRead .rdH0 ∧ readIsUnspec .rdH0 updating ∧ isRead (.rdBuf 15) ∧ readIsUnspec (.rdBuf 15) finalizing ∧
    isRead .rdDigest4 ∧ readIsUnspec .rdDigest4 finalizing ∧ ¬ readIsUnspec .rdDigest4 updating ∧
    ¬ readIsUnspec .rdH0 State.reset ∧ isRead .rdStatus ∧ ¬ readIsUnspec .rdStatus finalizing ∧
    isRead (.rdReserved48to63 0) ∧ readsReserved (.rdReserved48to63 0) := by
  simp [isRead, readIsUnspec, readsContext, readsDigest, readsReserved, updating, finalizing, State.reset]

/-- BuflenWrite: the values where its clauses meet, in either state. -/
theorem witness_buflen :
    64 ≤ (64 : Word).toNat ∧ (63 : Word).toNat < 64 ∧ State.reset.inflight = .none ∧ updating.inflight ≠ .none := by decide

/-- BadAddressWrites. -/
theorem witness_bad_address : writesBadAddress (.wrDigest2 1) = true ∧ writesBadAddress (.wrReserved10to11 1 1) = true := by
  decide

/-- EveryAccessRaisesTheErrorItIsDue: each of the errors, and none. -/
theorem witness_expected_error :
    expectedError (.wrCmd 7) updating = some .badCmd ∧ expectedError (.wrBuflen 64) updating = some .badValue ∧
    expectedError (.wrStatus 0) finalized = some .badAddr ∧ expectedError (.wrH3 0) finalizing = some .busy ∧
    expectedError (.wrCmd 4) finalizing = some .busy ∧ expectedError (.wrCmd 0x11) finalized = some .afterFinal ∧
    expectedError .reset finalized = none ∧ expectedError (.wrH3 0) finalized = none ∧
    expectedError .nop updating = none := by decide

/-- ReservedCommandWordsRaiseBadCmd: one word for each case, at its least value. -/
theorem witness_reserved_command_words :
    6 ≤ ((0x00000006 : Word).extractLsb' 0 4).toNat ∧ (0x00000080 : Word).extractLsb' 7 25 ≠ 0 ∧
    (((0x00000051 : Word).extractLsb' 0 4).toNat = 1 ∧ 5 ≤ ((0x00000051 : Word).extractLsb' 4 3).toNat) ∧
    (((0x00000010 : Word).extractLsb' 0 4).toNat ≠ 1 ∧ ((0x00000010 : Word).extractLsb' 4 3).toNat ≠ 0) := by decide

/-- OnlyClearErrClearsTheError. -/
theorem witness_error_stays :
    exec .reset faulty = .next (after .reset faulty) ∧ faulty.err = true ∧ issued .reset ≠ .clearErr ∧
    issued (.wrCmd 5) = .clearErr := by
  refine ⟨exec_after _ _, ?_⟩; decide

/-- ClearErrEffect: words with OP = 5 that are not CLEAR_ERR. -/
theorem witness_not_clear_err :
    (0x00000015 : Word).extractLsb' 0 4 = 5 ∧ (0x00000015 : Word) ≠ 0x00000005 ∧
    (0x80000005 : Word).extractLsb' 0 4 = 5 ∧ (0x80000005 : Word) ≠ 0x00000005 := by decide

/-- TheFaultRecordOnlyGrows: an instruction and a step. -/
theorem witness_record :
    exec (.badCmd 6) faulty = .next (raise .badCmd faulty) ∧ step faulty = .next faulty ∧
    faulty.faults <+: (raise .badCmd faulty).faults := ⟨rfl, rfl, [.badCmd], rfl⟩

/-- ThePhaseBit: both ways to change FINAL, and a refused command. -/
theorem witness_phase :
    (after .finalize abc).final ≠ abc.final ∧ (after .reset finalized).final ≠ finalized.final ∧
    finalized.final = true ∧ finalized.inflight = .none ∧ refusedAfterFinal (issued (.wrCmd 3)) = true ∧
    issued (.wrCmd 2) = .finalize ∧ issued (.wrCmd 4) = .reset := by decide

/-- DigestAndItsValidity: a finalize changes DVALID, and so does the engine's completion of one. -/
theorem witness_digest_changes :
    (after .finalizeReset { State.reset with dvalid := true }).dvalid ≠ true ∧
    (complete finalizing).dvalid ≠ finalizing.dvalid ∧ finalizing.inflight = .fin ∧
    (complete finalizing).inflight = .none := by decide

/-- OnlyWrDataChangesData. -/
theorem witness_data_kept :
    exec .nop faulty = .next faulty ∧ ∀ v, Instr.nop ≠ .wrData v := ⟨rfl, fun _ => by simp⟩

/-- WhatWritesTheHashState: a write of one word changes H, and so does RESET. -/
theorem witness_hash_changes :
    (after (.wrH2 7) State.reset).h ≠ State.reset.h ∧ (after .reset { State.reset with h := ⟨1, 2, 3, 4, 5⟩ }).h ≠ ⟨1, 2, 3, 4, 5⟩ := by
  decide

/-- LengthAndFillAgree: an instruction that writes no context register, in a state where LEN and BUFLEN agree. -/
theorem witness_length_and_fill :
    writesContext .updateNb4 = false ∧ nearlyFull.final = false ∧ nearlyFull.len.toNat % 64 = nearlyFull.buflen.toNat := by
  decide

/-- UpdateEffect and EmptyUpdate: the beat that leaves one byte free, and the one that fills the block. -/
theorem witness_update :
    IsUpdate (.updateNb0to3 1) 1 ∧ Absorbing nearlyFull ∧ nearlyFull.buflen.toNat + 1 < 64 ∧
    IsUpdate (.updateNb0to3 2) 2 ∧ 64 ≤ nearlyFull.buflen.toNat + 2 ∧ IsUpdate .updateNb4 4 ∧
    64 ≤ nearlyFull.buflen.toNat + 4 ∧ IsUpdate (.updateNb0to3 0) 0 ∧ finalized.final = true := by
  refine ⟨.inl ⟨1, rfl, rfl⟩, ⟨rfl, rfl⟩, by decide, .inl ⟨2, rfl, rfl⟩, by decide, .inr ⟨rfl, rfl⟩, by decide, .inl ⟨0, rfl, rfl⟩, rfl⟩

/-- FinalizeOfOnePaddingBlock, FinalizeOfTwoPaddingBlocks, FinalizeResetEffect: BUFLEN at the ends of both ranges. -/
theorem witness_finalize :
    Absorbing abc ∧ abc.buflen.toNat ≤ 55 ∧ Absorbing { abc with buflen := 55 } ∧ (55 : BitVec 6).toNat ≤ 55 ∧
    Absorbing { abc with buflen := 56 } ∧ 56 ≤ (56 : BitVec 6).toNat ∧ 56 ≤ (63 : BitVec 6).toNat := by
  refine ⟨⟨rfl, rfl⟩, by decide, ⟨rfl, rfl⟩, by decide, ⟨rfl, rfl⟩, by decide, by decide⟩

/-- LengthWraparound: each of its lengths. -/
theorem witness_length_wraparound :
    Absorbing State.reset ∧ State.reset.buflen = 0 ∧ State.reset.h = iv ∧ State.reset.len = 0 ∧
    Absorbing { State.reset with len := 0x2000000000000000 } ∧
    Absorbing { State.reset with len := 0xFFFFFFFFFFFFFFFF } := ⟨⟨rfl, rfl⟩, rfl, rfl, rfl, ⟨rfl, rfl⟩, ⟨rfl, rfl⟩⟩

/-- A unit in the last cycle of its last block, in whatever form the core has. -/
def atLastCycle : State := { updating with unit := { CompUnit.zero with cycle := Config.form.tBlock } }

/-- A unit with an overhead cycle still to spend. -/
def atOverhead : State := { updating with unit := { CompUnit.zero with overhead := 1 } }

/-- CompletionStep: the engine's turn, in a last cycle and in an earlier one. -/
theorem witness_completion :
    atLastCycle.engineTurn = true ∧ (atLastCycle.unit.clock Config.form).2 = true ∧
    atOverhead.engineTurn = true ∧ (atOverhead.unit.clock Config.form).2 = false := by
  refine ⟨rfl, ?_, rfl, ?_⟩
  · simp [atLastCycle, CompUnit.clock, CompUnit.lastCycle, CompUnit.zero]
  · simp [atOverhead, CompUnit.clock]

/-- A form with one overhead cycle and twenty cycles a block. -/
def someForm : Config.Form := ⟨.r4, false, 1, 0, fun _ => 0⟩

/-- BusyLastsItsCycles and EveryFormGivesCompress: two blocks in 41 cycles, the last and the one before. -/
theorem witness_busy :
    someForm.tFixed + [State.reset.buf, abc.buf].length * someForm.tBlock = 41 ∧ [State.reset.buf, abc.buf] ≠ [] ∧
    40 < 41 ∧ 39 < 41 ∧ someForm.pipelined = false ∧ ({ someForm with roundsPerCycle := .r80 } : Config.Form).tBlock = 1 := by
  refine ⟨rfl, by simp, by decide, by decide, rfl, rfl⟩

/-- EveryPollEnds: a host that polls an idle core, and one that polls a core with a command in flight. -/
theorem witness_poll :
    ({ finalized with pending := [.poll, .poll] } : State).pending = .poll :: [.poll] ∧
    ({ finalizing with pending := [.poll] } : State).pending = .poll :: [] ∧ finalizing.rstN = true := ⟨rfl, rfl, rfl⟩

/-- UnitDataIsInvisible: two units that hold different data. -/
theorem witness_unit_data :
    AgreeButUnitData atOverhead { atOverhead with unit := { atOverhead.unit with t := 3, chain := iv } } ∧
    atOverhead ≠ { atOverhead with unit := { atOverhead.unit with t := 3, chain := iv } } := by
  refine ⟨⟨rfl, rfl, rfl, rfl⟩, ?_⟩
  intro h
  have := congrArg (fun s => s.unit.t) h
  exact absurd this (by decide)

/-- RoundFunctionsAndConstants, EquivalentRoundFunctions, ScheduleRecurrence, RollingWindowShowsTheSchedule: the first and last
round of each group (spec/95_test_vectors.md section 2.2). -/
theorem witness_rounds :
    roundConstant 0 = 0x5A827999 ∧ roundConstant 19 = 0x5A827999 ∧ roundConstant 20 = 0x6ED9EBA1 ∧
    roundConstant 39 = 0x6ED9EBA1 ∧ roundConstant 40 = 0x8F1BBCDC ∧ roundConstant 59 = 0x8F1BBCDC ∧
    roundConstant 60 = 0xCA62C1D6 ∧ roundConstant 79 = 0xCA62C1D6 := by decide

/-- A state in flight that meets the invariant and is not the reset state: a unit with no rounds left. -/
def consistent : State :=
  { State.reset with
    inflight := .upd
    h := ⟨0, 0, 0, 0, 0⟩
    unit := { CompUnit.zero with t := 80 } }

/-- EveryStepKeepsTheInvariant. -/
theorem witness_invariant : Inv consistent ∧ step consistent = .next (engineStep (beginStep consistent)) := by
  refine ⟨⟨?_, ?_, ?_, ?_, ?_, ?_, ?_, ?_, ?_, ?_⟩, rfl⟩ <;>
    simp [consistent, State.reset, CompUnit.result, CompUnit.rounds, CompUnit.zero, Hash.add, compressAll]

/-- EveryStepKeepsTheInvariant in reset: the invariant says nothing of what the unit holds there. -/
theorem witness_invariant_in_reset :
    Inv { State.reset with rstN := false, unit := { CompUnit.zero with t := 3 } } := by
  refine ⟨?_, ?_, ?_, ?_, ?_, ?_, ?_, ?_, ?_, ?_⟩ <;> simp [State.reset, hardwareReset]

/-- StaleBytesNeverReachADigest: two engines with different stale bytes, and an accepted finalize. -/
theorem witness_stale_bytes :
    SameEngine State.reset { State.reset with buf := Vector.replicate 64 0xFF } ∧ (∀ v, Instr.finalize ≠ .wrBuflen v) ∧
    (∃ t₁, exec .finalize State.reset = .next t₁) ∧
    (∃ t₂, exec .finalize { State.reset with buf := Vector.replicate 64 0xFF } = .next t₂) ∧
    issued .finalize = .finalize ∧ Absorbing State.reset := by
  refine ⟨⟨rfl, rfl, rfl, ?_, rfl, rfl, rfl⟩, by simp, ⟨_, exec_after _ _⟩, ⟨_, exec_after _ _⟩, rfl, ⟨rfl, rfl⟩⟩
  intro j hj
  exact absurd hj (by simp [State.reset])

/-- ResetEngineIsAFreshEngine: a RESET of a core with stale bytes in its buffer, then a beat and a finalize. -/
theorem witness_reset_engine :
    let t := after .reset abc
    let es := [Event.instr (.wrData 5), .instr .updateNb4, .completion]
    abc.inflight = .none ∧ exec .reset abc = .next t ∧ NoBuflenWrite es ∧ Absorbing (afterEvents t es) := by
  refine ⟨rfl, exec_after _ _, by intro v; simp, ⟨by decide, by decide⟩⟩

/-- ChunkingDoesNotMatter and DigestOfEveryMessage: one message in two ways, from the initial state. -/
theorem witness_beats :
    Absorbing State.reset ∧ State.reset.h = iv ∧ State.reset.len = 0 ∧ State.reset.buflen = 0 ∧
    BeatsFit [[0x61, 0x62, 0x63, 0x64], [0x65]] ∧ BeatsFit [[0x61], [], [0x62, 0x63], [0x64, 0x65]] ∧
    [[0x61, 0x62, 0x63, 0x64], [(0x65 : Byte)]].flatten = [[0x61], [], [0x62, 0x63], [0x64, 0x65]].flatten := by
  refine ⟨⟨rfl, rfl⟩, rfl, rfl, rfl, ?_, ?_, rfl⟩ <;> simp [BeatsFit]

/-- RestoreGivesTheSavedContext: from a finished core into another one. -/
theorem witness_restore : finalized.inflight = .none ∧ Absorbing faulty := ⟨rfl, rfl, rfl⟩

/-- HardwareReset: the pin goes low in flight, an access in reset, the pin goes high again. -/
theorem witness_hardware_reset :
    ({ waiting (.cmd 0) with pending := [.rst false] } : State).engineTurn = false ∧
    ({ State.reset with rstN := false, pending := [.access (.bus 0x10 0)] } : State).engineTurn = false ∧
    (0x10 : BitVec 7).getLsbD 6 = false ∧
    ({ State.reset with rstN := false, pending := [.rst true] } : State).engineTurn = false := by decide

end Sys2Proof.Machine.Tests
end

section
/-! The message schedule as a list, and the rolling window of the compression unit against it (spec/43_compression.md R212, R222). -/

namespace Sys2Proof.Machine

theorem length_loadWords (B : Buffer) : (loadWords B).length = 16 := by simp [loadWords]

theorem length_extendSchedule (n : Nat) (ws : List Word) : (extendSchedule n ws).length = ws.length + n := by
  induction n generalizing ws with
  | zero => rfl
  | succ n ih => rw [extendSchedule, ih, List.length_append, List.length_singleton]; omega

theorem length_schedule (B : Buffer) : (schedule B).length = 80 := by
  rw [schedule, length_extendSchedule, length_loadWords]

/-- Extending a schedule keeps the words it has. -/
theorem extendSchedule_getD_old (n : Nat) {ws : List Word} {i : Nat} (hi : i < ws.length) :
    (extendSchedule n ws).getD i 0 = ws.getD i 0 := by
  induction n generalizing ws with
  | zero => rfl
  | succ n ih =>
    rw [extendSchedule, ih (by rw [List.length_append]; omega), List.getD_append _ _ _ _ hi]

/-- Every word that an extension adds is made of four earlier words of the extended schedule. -/
theorem extendSchedule_getD_new (n : Nat) {ws : List Word} {t : Nat} (h16 : 16 ≤ ws.length) (hlo : ws.length ≤ t)
    (hhi : t < ws.length + n) :
    let w := fun i => (extendSchedule n ws).getD i 0
    w t = rotl (w (t - 3) ^^^ w (t - 8) ^^^ w (t - 14) ^^^ w (t - 16)) 1 := by
  induction n generalizing ws with
  | zero => omega
  | succ n ih =>
    have hlen : (ws ++ [scheduleWord ws]).length = ws.length + 1 := by simp
    by_cases ht : t = ws.length
    · subst ht
      have hold : ∀ k, 3 ≤ k → k ≤ 16 →
          (extendSchedule n (ws ++ [scheduleWord ws])).getD (ws.length - k) 0 = ws.getD (ws.length - k) 0 := by
        intro k h3 hk
        rw [extendSchedule_getD_old n (by omega), List.getD_append _ _ _ _ (by omega)]
      have hnew : (extendSchedule n (ws ++ [scheduleWord ws])).getD ws.length 0 = scheduleWord ws := by
        rw [extendSchedule_getD_old n (by omega), List.getD_append_right _ _ _ _ (Nat.le_refl _)]
        simp
      simp only [extendSchedule, hnew, hold 3, hold 8, hold 14, hold 16, Nat.reduceLeDiff]
      rfl
    · exact ih (by omega) (by omega) (by omega)

theorem schedule_getD_first (B : Buffer) {i : Nat} (hi : i < 16) : (schedule B).getD i 0 = (loadWords B).getD i 0 :=
  extendSchedule_getD_old 64 (by rwa [length_loadWords])

/-- The schedule's recurrence (spec/43_compression.md R212). -/
theorem schedule_getD_later (B : Buffer) {t : Nat} (hlo : 16 ≤ t) (hhi : t < 80) :
    (schedule B).getD t 0 =
      rotl ((schedule B).getD (t - 3) 0 ^^^ (schedule B).getD (t - 8) 0 ^^^ (schedule B).getD (t - 14) 0 ^^^
        (schedule B).getD (t - 16) 0) 1 :=
  have hl := length_loadWords B
  extendSchedule_getD_new 64 (by omega) (by omega) (by omega)

/-- Before round `t` the window holds the sixteen words of the schedule up to `t`, each at its index mod 16. -/
def WindowHolds (W : List Word) (t : Nat) (w : Vector Word 16) : Prop :=
  ∀ i, i < max t 16 → t ≤ i + 16 → windowAt w i = W.getD i 0

theorem windowAt_set (w : Vector Word 16) (t i : Nat) (x : Word) :
    windowAt (w.setIfInBounds (t % 16) x) i = if i % 16 = t % 16 then x else windowAt w i := by
  have hi : i % 16 < 16 := Nat.mod_lt _ (by decide)
  have hget : ∀ v : Vector Word 16, windowAt v i = v[i % 16] := fun v => by simp [windowAt, Vector.getD, hi]
  rw [hget, hget, Vector.getElem_setIfInBounds]
  simp only [eq_comm]

theorem windowAt_congr (w : Vector Word 16) {i j : Nat} (h : i % 16 = j % 16) : windowAt w i = windowAt w j := by
  rw [windowAt, windowAt, h]

/-- A block's own words fill the window. -/
theorem windowHolds_loadWindow (B : Buffer) : WindowHolds (schedule B) 0 (loadWindow B) := by
  intro i hi _
  have hi : i < 16 := by omega
  rw [schedule_getD_first B hi]
  simp [windowAt, loadWindow, Vector.getD, Nat.mod_eq_of_lt hi, hi]

/-- One round moves the window on by one word of the schedule. -/
theorem windowHolds_windowStep (B : Buffer) {t : Nat} {w : Vector Word 16} (ht : t < 80)
    (h : WindowHolds (schedule B) t w) : WindowHolds (schedule B) (t + 1) (windowStep t w) := by
  intro i hi hti
  by_cases h16 : t < 16
  · rw [windowStep, if_pos h16]
    exact h i (by omega) (by omega)
  · rw [windowStep, if_neg h16, windowAt_set]
    split
    next hmod =>
      obtain rfl : i = t := by omega
      rw [h (i - 3) (by omega) (by omega), h (i - 8) (by omega) (by omega), h (i - 14) (by omega) (by omega),
        windowAt_congr w (show i % 16 = (i - 16) % 16 by omega), h (i - 16) (by omega) (by omega),
        ← schedule_getD_later B (by omega) ht]
    next hmod => exact h i (by omega) (by omega)

end Sys2Proof.Machine
end

section
/-! The unit computes `compress` (spec/43_compression.md R222 to R226): what it will have computed in the end is fixed when it is
loaded, and no clock cycle before the last changes it. -/

namespace Sys2Proof.Machine.CompUnit

/-- The rounds left do to the working variables what the rest of the schedule does. -/
theorem rounds_work (B : Buffer) (n : Nat) (u : CompUnit) (ht : u.t.toNat + n = 80)
    (hw : WindowHolds (schedule B) u.t.toNat u.window) :
    (rounds n u).work = runRounds u.t.toNat ((schedule B).drop u.t.toNat) u.work := by
  induction n generalizing u with
  | zero => rw [List.drop_of_length_le (by rw [length_schedule]; omega)]; rfl
  | succ n ih =>
    have hlt : u.t.toNat < 80 := by omega
    have hlen : u.t.toNat < (schedule B).length := by rwa [length_schedule]
    have ht1 : u.round.t.toNat = u.t.toNat + 1 := rounds_t 1 u (by omega)
    have hw1 := windowHolds_windowStep B hlt hw
    have hword : windowAt (windowStep u.t.toNat u.window) u.t.toNat = (schedule B)[u.t.toNat] := by
      rw [hw1 _ (by omega) (by omega), List.getD_eq_getElem _ _ hlen]
    calc (rounds (n + 1) u).work
        = (rounds n u.round).work := rfl
      _ = runRounds (u.t.toNat + 1) ((schedule B).drop (u.t.toNat + 1)) u.round.work := by
        rw [ih u.round (by omega) (by rw [ht1]; exact hw1), ht1]
      _ = runRounds u.t.toNat ((schedule B).drop u.t.toNat) u.work := by
        rw [List.drop_eq_getElem_cons hlen, runRounds, ← hword]
        rfl

/-- A loaded unit will compute its blocks' compressions. -/
theorem result_load (H : Hash) (B : Buffer) (rest : List Buffer) (u : CompUnit) :
    (load H B rest u).result = compressAll H (B :: rest) := by
  have ht : (load H B rest u).t.toNat = 0 := rfl
  have hwork := rounds_work B 80 (load H B rest u) (by rw [ht]) (by rw [ht]; exact windowHolds_loadWindow B)
  rw [result, ht, Nat.sub_zero, hwork, ht, List.drop_zero]
  simp only [load, compressAll, List.foldl_cons, compress]

/-- A started unit will compute the command's blocks. -/
theorem result_start (p : Config.Form) (H : Hash) {blocks : List Buffer} (u : CompUnit) (h : blocks ≠ []) :
    (u.start p H blocks).result = compressAll H blocks := by
  cases blocks with
  | nil => exact absurd rfl h
  | cons B rest => exact result_load H B rest _

/-- The rounds do not look at the cycle counters. -/
theorem rounds_counters (n k c : Nat) (u : CompUnit) :
    rounds n { u with overhead := k, cycle := c } = { rounds n u with overhead := k, cycle := c } := by
  induction n generalizing u with
  | zero => rfl
  | succ n ih => exact ih u.round

/-- Nor does the result. -/
theorem result_counters (k c : Nat) (u : CompUnit) : ({ u with overhead := k, cycle := c } : CompUnit).result = u.result := by
  simp only [result, rounds_counters, rounds_chain, rounds_next]

/-- Rounds of the running block do not change what the unit will compute. -/
theorem result_rounds (k : Nat) (u : CompUnit) (hk : k ≤ 80 - u.t.toNat) : (rounds k u).result = u.result := by
  have ht : (rounds k u).t.toNat = u.t.toNat + k := rounds_t k u (by have := u.t.isLt; omega)
  have hsplit : k + (80 - (u.t.toNat + k)) = 80 - u.t.toNat := by omega
  rw [result, ht, ← rounds_add, hsplit, rounds_chain, rounds_next, result]

/-- At a block's end the final addition hands the result on to the waiting blocks (spec/43_compression.md R217). -/
theorem result_of_next {u : CompUnit} {B : Buffer} {rest : List Buffer} (h : u.next = B :: rest) :
    u.result = compressAll (u.chain.add (rounds (80 - u.t.toNat) u).work) (B :: rest) := by
  rw [result, h]

/-- No clock cycle before the command's last changes what the unit will have computed. -/
theorem result_clock (p : Config.Form) (u : CompUnit) (h : (u.clock p).2 = false) : (u.clock p).1.result = u.result := by
  unfold clock at h ⊢
  split
  next => exact result_counters _ _ u
  next hov =>
    rw [if_neg hov] at h
    by_cases hl : u.lastCycle p = true
    · simp only [hl, if_true] at h ⊢
      match hn : u.next with
      | [] => simp [hn] at h
      | B :: rest => simp only [result_load, result_of_next hn, roundsNow, hl, if_true]
    · have hk : u.roundsNow p ≤ 80 - u.t.toNat := by
        rw [roundsNow, if_neg hl]
        exact (Nat.min_le_right _ _).trans (by omega)
      simp only [hl]
      rw [← result_rounds _ u hk]
      exact result_counters _ _ _

end Sys2Proof.Machine.CompUnit
end

section
/-! `Inv` holds at reset, and every instruction, every move of the engine and every doing of the host's side keeps it. -/

namespace Sys2Proof.Machine

theorem padBlocks_ne_nil (s : State) : s.padBlocks ≠ [] := by
  rw [State.padBlocks, Machine.padBlocks]
  split <;> exact List.cons_ne_nil _ _

theorem code_bounds (c : ErrCode) : 1 ≤ c.code.toNat ∧ c.code.toNat ≤ 5 := by
  cases c <;> decide

theorem compressAll_singleton (H : Hash) (B : Buffer) : compressAll H [B] = compress H B := by
  rw [compressAll, List.foldl_cons, List.foldl_nil]

/-! ## Operations -/

/-- `Inv` says nothing of the read data and the model's own fields. -/
theorem inv_hostFields {s : State} (h : Inv s) (r : Option Word) (p : List HostItem) (w d : Nat) :
    Inv { s with rdata := r, pending := p, engineWait := w, draws := d } where
  errClear := h.errClear
  errSet := h.errSet
  errRecorded := h.errRecorded
  updInAbsorb := h.updInAbsorb
  finPhase := h.finPhase
  finrPhase := h.finrPhase
  finalValid := h.finalValid
  unitGivesState := h.unitGivesState
  unitGivesDigest := h.unitGivesDigest
  heldInReset hn :=
    congrArg (fun u : State => { u with rdata := r, pending := p, engineWait := w, draws := d }) (h.heldInReset hn)

/-- A core that holds its reset values satisfies `Inv`, whatever the pin and the record are. -/
theorem inv_hardwareReset (s : State) (level : Bool) : Inv { hardwareReset s with rstN := level } where
  errClear _ := rfl
  errSet := by simp [State.reset]
  errRecorded := by simp [State.reset]
  updInAbsorb := by simp [State.reset]
  finPhase := by simp [State.reset]
  finrPhase := by simp [State.reset]
  finalValid := by simp [State.reset]
  unitGivesState := by simp [State.reset]
  unitGivesDigest := by simp [State.reset]
  heldInReset _ := rfl

/-- A running core whose registers other than the error fields satisfy `Inv` satisfies it with any error fields that agree. -/
theorem inv_errorFields {s : State} (h : Inv s) (hr : s.rstN = true) {e : Bool} {k : BitVec 4} {fs : List ErrCode}
    (hclear : e = false → k = 0) (hset : e = true → 1 ≤ k.toNat ∧ k.toNat ≤ 5) (hrec : e = true → fs ≠ []) :
    Inv { s with err := e, errcode := k, faults := fs } where
  errClear := hclear
  errSet := hset
  errRecorded := hrec
  updInAbsorb := h.updInAbsorb
  finPhase := h.finPhase
  finrPhase := h.finrPhase
  finalValid := h.finalValid
  unitGivesState := h.unitGivesState
  unitGivesDigest := h.unitGivesDigest
  heldInReset hn := absurd (hr.symm.trans hn) (by decide)

theorem inv_raise {s : State} (c : ErrCode) (h : Inv s) (hr : s.rstN = true) : Inv (raise c s) := by
  refine inv_errorFields h hr (by simp) (fun _ => ?_) (by simp)
  cases he : s.err
  · exact code_bounds c
  · exact h.errSet he

theorem inv_clearError {s : State} (h : Inv s) (hr : s.rstN = true) : Inv (clearError s) :=
  inv_errorFields h hr (fun _ => rfl) (by simp) (by simp)

/-- No clause for a running core looks at LEN, BUFLEN, the buffer or DATA, nor at more of the unit than its result. -/
theorem inv_unobserved {s : State} {u : CompUnit} (n : BitVec 64) (b : BitVec 6) (m : Buffer) (v : Word) (h : Inv s)
    (hr : s.rstN = true) (hu : u.result = s.unit.result) :
    Inv { s with len := n, buflen := b, buf := m, data := v, unit := u } where
  errClear := h.errClear
  errSet := h.errSet
  errRecorded := h.errRecorded
  updInAbsorb := h.updInAbsorb
  finPhase := h.finPhase
  finrPhase := h.finrPhase
  finalValid := h.finalValid
  unitGivesState hk := hu.trans (h.unitGivesState hk)
  unitGivesDigest hk := hu.trans (h.unitGivesDigest hk)
  heldInReset hn := absurd (hr.symm.trans hn) (by decide)

/-- With nothing in flight the context of a running core may be written, and FINAL cleared. -/
theorem inv_context {s : State} {f : Bool} (H : Hash) (n : BitVec 64) (b : BitVec 6) (m : Buffer) (h : Inv s)
    (hr : s.rstN = true) (hi : s.inflight = .none) (hf : f = true → s.final = true) :
    Inv { s with h := H, len := n, buflen := b, buf := m, final := f } where
  errClear := h.errClear
  errSet := h.errSet
  errRecorded := h.errRecorded
  updInAbsorb := by simp [hi]
  finPhase := by simp [hi]
  finrPhase := by simp [hi]
  finalValid _ hft := h.finalValid hi (hf hft)
  unitGivesState := by simp [hi]
  unitGivesDigest := by simp [hi]
  heldInReset hn := absurd (hr.symm.trans hn) (by decide)

/-! ## Commands -/

/-- The states inside the loop of an accepted UPDATE (spec/40_update_reset.md R122): a running core in the ABSORB phase. -/
structure Updating (s : State) : Prop where
  inv : Inv s
  running : s.rstN = true
  absorbing : s.final = false

/-- A byte that fills the block starts the unit on the compression `H` that the registers take. -/
theorem updating_launch {s : State} {m : Buffer} {H : Hash} (h : Updating s) (hH : compressAll s.h [m] = H) :
    Updating (launch .upd s.h [m] { s with buf := m, h := H, buflen := 0 }) where
  inv := {
    errClear := h.inv.errClear
    errSet := h.inv.errSet
    errRecorded := h.inv.errRecorded
    updInAbsorb := fun _ => h.absorbing
    finPhase := by simp
    finrPhase := by simp
    finalValid := by simp
    unitGivesState := fun _ => (CompUnit.result_start _ _ _ (List.cons_ne_nil m [])).trans hH
    unitGivesDigest := by simp
    heldInReset := fun hn => absurd (h.running.symm.trans hn) (by decide) }
  running := h.running
  absorbing := h.absorbing

/-- A byte that does not fill it goes to the buffer, in flight or not. -/
theorem updating_buffer {s : State} (h : Updating s) (m : Buffer) (b : BitVec 6) :
    Updating { s with buf := m, buflen := b } where
  inv := inv_unobserved _ b m _ h.inv h.running rfl
  running := h.running
  absorbing := h.absorbing

theorem updating_absorb {s : State} (bs : List Byte) (h : Updating s) : Updating (absorb s bs) := by
  induction bs generalizing s with
  | nil => exact h
  | cons b bs ih =>
    refine ih (s := absorbByte s b) ?_
    by_cases hfull : s.buflen.toNat + 1 = 64
    · rw [absorbByte_full s b hfull]
      exact updating_launch h (compressAll_singleton _ _)
    · rw [absorbByte_open s b (by have := s.buflen.isLt; omega)]
      exact updating_buffer h _ _

theorem inv_updateEffect {s : State} (nb : Nat) (h : Inv s) (hr : s.rstN = true) (ha : Absorbing s) :
    Inv (updateEffect nb s) :=
  have hlen : Inv { s with len := s.len + BitVec.ofNat 64 nb } := inv_unobserved _ _ _ _ h hr rfl
  (updating_absorb _ ⟨hlen, hr, ha.2⟩).inv

theorem inv_finalizeEffect {s : State} (h : Inv s) (hr : s.rstN = true) : Inv (finalizeEffect s) where
  errClear := h.errClear
  errSet := h.errSet
  errRecorded := h.errRecorded
  updInAbsorb := by simp [finalizeEffect]
  finPhase _ := ⟨rfl, rfl⟩
  finrPhase := by simp [finalizeEffect]
  finalValid := by simp [finalizeEffect]
  unitGivesState _ := CompUnit.result_start _ _ _ (padBlocks_ne_nil s)
  unitGivesDigest _ := CompUnit.result_start _ _ _ (padBlocks_ne_nil s)
  heldInReset hn := absurd (hr.symm.trans hn) (by decide)

theorem inv_finalizeResetEffect {s : State} (h : Inv s) (hr : s.rstN = true) (ha : Absorbing s) :
    Inv (finalizeResetEffect s) where
  errClear := h.errClear
  errSet := h.errSet
  errRecorded := h.errRecorded
  updInAbsorb := by simp [finalizeResetEffect]
  finPhase := by simp [finalizeResetEffect]
  finrPhase _ := ⟨ha.2, rfl⟩
  finalValid := by simp [finalizeResetEffect]
  unitGivesState := by simp [finalizeResetEffect]
  unitGivesDigest _ := CompUnit.result_start _ _ _ (padBlocks_ne_nil s)
  heldInReset hn := absurd (hr.symm.trans hn) (by decide)

/-- Every instruction of a running core keeps the invariant. -/
theorem inv_effect {i : Instr} {s t : State} (e : Effect i s t) (h : Inv s) (hr : s.rstN = true) : Inv t := by
  cases e with
  | skip => exact h
  | clear => exact inv_clearError h hr
  | value => exact inv_hostFields h _ _ _ _
  | draw => exact inv_hostFields h _ _ _ _
  | error _ _ c => exact inv_raise c h hr
  | data _ v => exact inv_unobserved _ _ _ v h hr rfl
  | hash _ _ H _ hi => exact inv_context H _ _ _ h hr hi id
  | length _ _ n _ hi => exact inv_context _ n _ _ h hr hi id
  | level _ _ b hi => exact inv_context _ _ b _ h hr hi id
  | bytes _ _ _ hi => exact inv_context _ _ _ _ h hr hi id
  | reset _ hi => exact inv_context iv 0 0 _ h hr hi (by simp)
  | update _ nb _ _ ha => exact inv_updateEffect nb h hr ha
  | finalize => exact inv_finalizeEffect h hr
  | finalizeReset _ ha => exact inv_finalizeResetEffect h hr ha

/-! ## The engine and the host's side -/

/-- A core in reset has nothing in flight. -/
theorem inv_running_of_inflight {s : State} (h : Inv s) (hb : s.inflight ≠ .none) : s.rstN = true := by
  by_contra hn
  have hreset := h.heldInReset (by simpa using hn)
  exact hb (congrArg State.inflight hreset).symm

/-- The last cycle of a command: FINAL and DVALID are those of a completed command. -/
theorem inv_complete {s : State} (u : CompUnit) (h : Inv s) (hb : s.inflight ≠ .none) :
    Inv { s with
      unit := u
      inflight := .none
      dvalid := if s.inflight = .fin ∨ s.inflight = .finr then true else s.dvalid } where
  errClear := h.errClear
  errSet := h.errSet
  errRecorded := h.errRecorded
  updInAbsorb := by simp
  finPhase := by simp
  finrPhase := by simp
  finalValid _ hf := by
    cases hk : s.inflight with
    | none => exact absurd hk hb
    | upd => exact absurd hf (by simp [h.updInAbsorb hk])
    | fin | finr => simp
  unitGivesState := by simp
  unitGivesDigest := by simp
  heldInReset hn := absurd ((inv_running_of_inflight h hb).symm.trans hn) (by decide)

/-- The last cycle of a command completes it; a cycle before the last leaves the unit on its way to the same result. -/
theorem inv_engineStep {s : State} (h : Inv s) (hb : s.inflight ≠ .none) : Inv (engineStep s) := by
  rcases engineStep_cases s with ⟨-, e⟩ | ⟨hlast, e⟩ <;> rw [e]
  · exact inv_complete _ h hb
  · have hunit := inv_unobserved s.len s.buflen s.buf s.data h (inv_running_of_inflight h hb)
      (CompUnit.result_clock Config.form s.unit hlast)
    exact inv_hostFields hunit _ _ _ _

theorem inv_beginStep {s : State} (h : Inv s) : Inv (beginStep s) := inv_hostFields h _ _ _ _

theorem inv_takeItem {s : State} (rest : List HostItem) (h : Inv s) : Inv (takeItem rest s) := inv_hostFields h _ _ _ _

theorem inv_ignoredAccess {s : State} (c : Code) (h : Inv s) : Inv (ignoredAccess c s) := by
  rw [ignoredAccess_eq]
  exact inv_hostFields h _ _ _ _

theorem inv_pollOnce {s : State} (h : Inv s) : Inv (pollOnce s) := by
  cases hr : s.rstN
  · rw [pollOnce_reset hr]
    exact inv_hostFields h _ _ _ _
  · cases hb : s.busy
    · rw [pollOnce_idle hr hb]
      exact inv_hostFields h _ _ _ _
    · rw [pollOnce_busy hr hb]
      exact inv_hostFields h _ _ _ _

theorem inv_setRstN {s : State} (level : Bool) (h : Inv s) : Inv (setRstN level s) := by
  rcases setRstN_cases level s with ⟨-, -, e⟩ | ⟨-, e⟩ <;> rw [e]
  · exact h
  · exact inv_hardwareReset s level

/-- Settles O54: by the kinds of steps (`step_cases`), each with its lemma above. -/
theorem everyStepKeepsTheInvariant : Obligations.EveryStepKeepsTheInvariant := by
  intro s t h hstep
  have h0 := inv_beginStep h
  rcases step_cases s with ⟨hturn, e⟩ | ⟨-, ⟨-, e⟩ | ⟨c, rest, -, hr, e⟩ | ⟨c, rest, -, -, e⟩ | ⟨rest, -, e⟩ |
    ⟨level, rest, -, e⟩⟩ <;> rw [e] at hstep
  case inr.inr.inl => exact inv_effect (effect_of_exec hstep) (inv_takeItem rest h0) hr
  all_goals cases hstep
  · exact inv_engineStep h0 (engineTurn_inflight hturn)
  · exact h0
  · exact inv_ignoredAccess c (inv_takeItem rest h0)
  · exact inv_pollOnce (inv_takeItem rest h0)
  · exact inv_setRstN level (inv_takeItem rest h0)

/-- Settles O53: reset is hardware reset of itself, and the values are those of spec/10_state.md R47. -/
theorem invariantAtReset : Obligations.InvariantAtReset :=
  ⟨inv_hardwareReset State.reset true, rfl, rfl, rfl, rfl, rfl, rfl, by decide, rfl⟩

end Sys2Proof.Machine
end

section
/-! Which instruction can change FINAL, DATA and H: from `Effect`, and for a write of Hn from its meaning. -/

namespace Sys2Proof.Machine

/-! ## The instruction that runs -/

/-- A write to CMD issues a command; every other instruction is the one that runs. -/
theorem issued_cases (i : Instr) : issued i = i ∨ ∃ c : Command, issued i = c.toInstr := by
  cases i
  case wrCmd v => exact .inr ⟨decodeCommand v, rfl⟩
  all_goals exact .inl rfl

theorem toInstr_ne_wrData (c : Command) (v : Word) : c.toInstr ≠ .wrData v := by
  cases c <;> simp [Command.toInstr]

theorem writesContext_toInstr (c : Command) : writesContext c.toInstr = false := by
  cases c <;> rfl

/-- Running an instruction is running the one it issues (spec/42_context.md R183). -/
theorem exec_issued (i : Instr) (s : State) : exec (issued i) s = exec i s := by
  cases i
  case wrCmd v => exact exec_command (decodeCommand v) s
  all_goals rfl

/-! ## The phase -/

theorem acceptInAbsorb_absorbing {f : State → State} {s : State} (ha : Absorbing s) : acceptInAbsorb f s = f s := by
  obtain ⟨hi, hf⟩ := ha
  simp [acceptInAbsorb, hi, hf]

theorem acceptInAbsorb_final {f : State → State} {s : State} (hi : s.inflight = .none) (hf : s.final = true) :
    acceptInAbsorb f s = raise .afterFinal s := by
  simp [acceptInAbsorb, hi, hf]

theorem acceptWhenIdle_idle {f : State → State} {s : State} (hi : s.inflight = .none) : acceptWhenIdle f s = f s := by
  simp [acceptWhenIdle, hi]

theorem exec_finalize_absorbing {s : State} (ha : Absorbing s) : exec .finalize s = .next (finalizeEffect s) :=
  congrArg Host.Outcome.next (acceptInAbsorb_absorbing ha)

theorem exec_reset_idle {s : State} (hi : s.inflight = .none) : exec .reset s = .next (resetEffect s) :=
  congrArg Host.Outcome.next (acceptWhenIdle_idle hi)

/-- UPDATE, FINALIZE and FINALIZE_RESET run behind the same checks. -/
theorem exec_of_refusedAfterFinal {i : Instr} (h : refusedAfterFinal i = true) :
    ∃ f, ∀ s, exec i s = .next (acceptInAbsorb f s) := by
  cases i
  case updateNb0to3 nb => exact ⟨updateEffect nb.toNat, fun _ => rfl⟩
  case updateNb4 => exact ⟨updateEffect 4, fun _ => rfl⟩
  case finalize => exact ⟨finalizeEffect, fun _ => rfl⟩
  case finalizeReset => exact ⟨finalizeResetEffect, fun _ => rfl⟩
  all_goals exact absurd h Bool.false_ne_true

theorem effect_final {i : Instr} {s t : State} (e : Effect i s t) (h : t.final ≠ s.final) :
    (i = .finalize ∧ t.final = true) ∨ (i = .reset ∧ t.final = false) := by
  cases e with
  | finalize => exact .inl ⟨rfl, rfl⟩
  | reset => exact .inr ⟨rfl, rfl⟩
  | update => exact absurd (updateEffect_final _ s) h
  | _ => exact absurd rfl h

theorem engineStep_final (s : State) : (engineStep s).final = s.final := by
  rcases engineStep_cases s with ⟨-, e⟩ | ⟨-, e⟩ <;> rw [e]

/-- Settles O28: the accepted commands by their checks, what changes FINAL by the shapes of `Effect`. -/
theorem thePhaseBit : Obligations.ThePhaseBit := by
  refine ⟨fun i s hi ha => ?_, fun i s hi hs => ?_, fun i s t ht h => effect_final (effect_of_exec ht) h,
    engineStep_final, fun s => rfl, fun i s hf hs hi => ?_⟩
  · exact ⟨finalizeEffect s, by rw [← exec_issued, hi, exec_finalize_absorbing ha], rfl⟩
  · exact ⟨resetEffect s, by rw [← exec_issued, hi, exec_reset_idle hs], rfl⟩
  · obtain ⟨f, he⟩ := exec_of_refusedAfterFinal hi
    rw [← exec_issued, he, acceptInAbsorb_final hs hf]

/-! ## DATA -/

theorem effect_data {i : Instr} {s t : State} (e : Effect i s t) (h : t.data ≠ s.data) : ∃ v, i = .wrData v := by
  cases e with
  | data _ v => exact ⟨v, rfl⟩
  | update => exact absurd (updateEffect_data _ s) h
  | _ => exact absurd rfl h

theorem issued_eq_wrData {i : Instr} {v : Word} (h : issued i = .wrData v) : i = .wrData v := by
  rcases issued_cases i with hi | ⟨c, hc⟩
  · exact hi.symm.trans h
  · exact absurd (hc.symm.trans h) (toInstr_ne_wrData c v)

theorem engineStep_data (s : State) : (engineStep s).data = s.data := by
  rcases engineStep_cases s with ⟨-, e⟩ | ⟨-, e⟩ <;> rw [e]

/-- Settles O30: WR DATA is the one shape of `Effect` that touches DATA, and no command word issues it. -/
theorem onlyWrDataChangesData : Obligations.OnlyWrDataChangesData := by
  refine ⟨fun i s t ht hi => ?_, engineStep_data⟩
  by_contra h
  obtain ⟨v, hv⟩ := effect_data (effect_of_exec ht) h
  exact hi v (issued_eq_wrData hv)

/-! ## The hash state -/

/-- The bytes of a beat leave in H the compressions of whole blocks. -/
theorem absorb_h (s : State) (bs : List Byte) : ∃ blocks, (absorb s bs).h = compressAll s.h blocks := by
  induction bs generalizing s with
  | nil => exact ⟨[], rfl⟩
  | cons b bs ih =>
    obtain ⟨blocks, hb⟩ := ih (absorbByte s b)
    by_cases hfull : s.buflen.toNat + 1 = 64
    · refine ⟨putByte s.buf s.buflen.toNat b :: blocks, hb.trans ?_⟩
      rw [absorbByte_full s b hfull, launch_h, compressAll, compressAll, List.foldl_cons]
    · refine ⟨blocks, hb.trans ?_⟩
      rw [absorbByte_open s b (by have := s.buflen.isLt; omega)]

/-- An UPDATE that changes H has compressed a block. -/
theorem updateEffect_h {nb : Nat} {s : State} (h : (updateEffect nb s).h ≠ s.h) :
    ∃ blocks, blocks ≠ [] ∧ (updateEffect nb s).h = compressAll s.h blocks := by
  obtain ⟨blocks, hb⟩ := absorb_h { s with len := s.len + BitVec.ofNat 64 nb } (beatBytes nb s.data)
  refine ⟨blocks, ?_, hb⟩
  rintro rfl
  exact h hb

/-- `t` holds the hash state of `s` with the one word set that the write of Hn `i` names. -/
def WritesHashWord (i : Instr) (s t : State) : Prop :=
  ∃ v, i = .wrH0 v ∧ t.h = { s.h with h0 := v } ∨ i = .wrH1 v ∧ t.h = { s.h with h1 := v } ∨
    i = .wrH2 v ∧ t.h = { s.h with h2 := v } ∨ i = .wrH3 v ∧ t.h = { s.h with h3 := v } ∨
    i = .wrH4 v ∧ t.h = { s.h with h4 := v }

theorem writeContext_h {f : State → State} {s : State} (h : (writeContext f s).h ≠ s.h) :
    s.inflight = .none ∧ writeContext f s = f s := by
  rcases writeContext_cases f s with hw | ⟨-, e⟩
  · exact hw
  · exact absurd (by rw [e, raise_h]) h

/-- A context write that changes H is a write of Hn with nothing in flight. -/
theorem exec_writesContext_h {i : Instr} {s t : State} (hi : writesContext i = true) (ht : exec i s = .next t)
    (h : t.h ≠ s.h) : s.inflight = .none ∧ WritesHashWord i s t := by
  cases i
  case wrH0 v | wrH1 v | wrH2 v | wrH3 v | wrH4 v =>
    cases ht
    obtain ⟨hs, e⟩ := writeContext_h h
    exact ⟨hs, v, by rw [e]; simp⟩
  case wrLenLo v | wrLenHi v =>
    cases ht
    exact absurd (congrArg State.h (writeContext_h h).2) h
  case wrBuf n v =>
    cases ht
    exact absurd (congrArg State.h (writeContext_h h).2) h
  case wrBuflen v =>
    cases ht
    split at h
    · exact absurd rfl h
    · exact absurd (congrArg State.h (writeContext_h h).2) h
  all_goals exact absurd hi Bool.false_ne_true

/-- The ways in which an instruction other than a context write changes H. -/
theorem effect_h {i : Instr} {s t : State} (e : Effect i s t) (hw : writesContext i = false) (h : t.h ≠ s.h) :
    s.inflight = .none ∧
      ((i = .reset ∨ i = .finalizeReset) ∧ t.h = iv ∨
        ((∃ nb, IsUpdate i nb) ∨ i = .finalize) ∧ ∃ blocks, blocks ≠ [] ∧ t.h = compressAll s.h blocks) := by
  cases e with
  | reset _ hi => exact ⟨hi, .inl ⟨.inl rfl, rfl⟩⟩
  | finalizeReset _ ha => exact ⟨ha.1, .inl ⟨.inr rfl, rfl⟩⟩
  | update _ nb _ hu ha => exact ⟨ha.1, .inr ⟨.inl ⟨nb, hu⟩, updateEffect_h h⟩⟩
  | finalize _ ha => exact ⟨ha.1, .inr ⟨.inr rfl, s.padBlocks, padBlocks_ne_nil s, rfl⟩⟩
  | hash _ _ _ hc => exact absurd (hw.symm.trans hc) Bool.false_ne_true
  | _ => exact absurd rfl h

theorem writesContext_of_issued {i : Instr} (h : writesContext (issued i) = true) : writesContext i = true := by
  rcases issued_cases i with hi | ⟨c, hc⟩
  · rwa [← hi]
  · rw [hc, writesContext_toInstr] at h
    exact absurd h Bool.false_ne_true

theorem engineStep_h (s : State) : (engineStep s).h = s.h := by
  rcases engineStep_cases s with ⟨-, e⟩ | ⟨-, e⟩ <;> rw [e]

/-- Settles O31: a write of Hn by its meaning, every other instruction by the shapes of `Effect`. -/
theorem whatWritesTheHashState : Obligations.WhatWritesTheHashState := by
  refine ⟨fun i s t ht h => ?_, engineStep_h⟩
  cases hw : writesContext (issued i)
  · obtain ⟨hs, hreset | hblocks⟩ := effect_h (effect_of_exec ht) hw h
    exacts [⟨hs, .inl hreset⟩, ⟨hs, .inr (.inl hblocks)⟩]
  · obtain ⟨hs, hword⟩ := exec_writesContext_h (writesContext_of_issued hw) ht h
    exact ⟨hs, .inr (.inr hword)⟩

end Sys2Proof.Machine
end

section
/-! Bus reads as two outcomes: the register's value, or a fresh draw where spec/42_context.md R196 leaves the value open. -/

namespace Sys2Proof.Machine

/-- The value that a read returns where the spec does not leave it open: 0 for CMD and a reserved index (spec/42_context.md R181 to
R195, R198). For an instruction that reads nothing the value is never used. -/
def registerValue (i : Instr) (s : State) : Word :=
  match i with
  | .rdInfo => infoValue
  | .rdData => s.data
  | .rdStatus => s.status
  | .rdDigest0 => s.digest.h0
  | .rdDigest1 => s.digest.h1
  | .rdDigest2 => s.digest.h2
  | .rdDigest3 => s.digest.h3
  | .rdDigest4 => s.digest.h4
  | .rdH0 => s.h.h0
  | .rdH1 => s.h.h1
  | .rdH2 => s.h.h2
  | .rdH3 => s.h.h3
  | .rdH4 => s.h.h4
  | .rdLenLo => lenLo s.len
  | .rdLenHi => lenHi s.len
  | .rdBuflen => buflenWord s.buflen
  | .rdBuf n => bufWord s.buf n
  | _ => 0

/-- What earlier reads left behind does not reach the value. -/
theorem registerValue_readFields (i : Instr) (s : State) (r : Option Word) (d : Nat) :
    registerValue i { s with rdata := r, draws := d } = registerValue i s := by
  cases i <;> rfl

/-! ## Each kind of read -/

theorem exec_readsPlain {i : Instr} (h : i ∈ [Instr.rdInfo, .rdCmd, .rdData, .rdStatus]) (s : State) :
    exec i s = .next (returnWord (registerValue i s) s) := by
  fin_cases h <;> rfl

theorem exec_readsDigest {i : Instr} (h : readsDigest i) (s : State) :
    exec i s = .next (readDigest (registerValue i s) s) := by
  unfold readsDigest at h
  fin_cases h <;> rfl

theorem exec_readsContext {i : Instr} (h : readsContext i) (s : State) :
    exec i s = .next (readContext (registerValue i s) s) := by
  obtain h | ⟨n, rfl⟩ := h
  · fin_cases h <;> rfl
  · rfl

theorem exec_readsReserved {i : Instr} (h : readsReserved i) (s : State) :
    exec i s = .next (returnWord 0 s) := by
  obtain rfl | ⟨k, rfl⟩ | ⟨k, rfl⟩ | ⟨k, rfl⟩ | ⟨k, rfl⟩ := h <;> rfl

theorem registerValue_reserved {i : Instr} (h : readsReserved i) (s : State) : registerValue i s = 0 := by
  obtain rfl | ⟨k, rfl⟩ | ⟨k, rfl⟩ | ⟨k, rfl⟩ | ⟨k, rfl⟩ := h <;> rfl

/-! ## Open and specified reads -/

/-- An open read returns a fresh draw (spec/42_context.md R196). -/
theorem exec_openRead {i : Instr} {s : State} (h : readIsUnspec i s) : exec i s = .next (returnUnspec s) := by
  obtain ⟨hc, hb⟩ | ⟨hd, hf⟩ := h
  · rw [exec_readsContext hc, readContext, if_neg hb]
  · rw [exec_readsDigest hd]
    obtain hk | hk := hf <;> rw [readDigest, hk]

/-- Every other read returns the register's value. -/
theorem exec_specifiedRead {i : Instr} {s : State} (hi : isRead i) (h : ¬ readIsUnspec i s) :
    exec i s = .next (returnWord (registerValue i s) s) := by
  obtain hp | hd | hc | hr := hi
  · exact exec_readsPlain hp s
  · obtain ⟨-, e⟩ | ⟨hf, -⟩ := readDigest_cases (registerValue i s) s
    · rw [exec_readsDigest hd, e]
    · exact absurd (.inr ⟨hd, hf⟩) h
  · obtain ⟨-, e⟩ | ⟨hb, -⟩ := readContext_cases (registerValue i s) s
    · rw [exec_readsContext hc, e]
    · exact absurd (.inl ⟨hc, hb⟩) h
  · rw [exec_readsReserved hr, registerValue_reserved hr]

/-- Whether a read is open depends on INFLIGHT, and not on what earlier reads left behind. -/
theorem readIsUnspec_readFields (i : Instr) (s : State) (r : Option Word) (d : Nat) :
    readIsUnspec i { s with rdata := r, draws := d } ↔ readIsUnspec i s := Iff.rfl

/-- Settles O17: a read is open or specified, and either touches the read data and the count of draws alone. -/
theorem readsHaveNoSideEffects : Obligations.ReadsHaveNoSideEffects := by
  refine fun i s hi => ⟨?_, fun hs => ⟨registerValue i s, fun r d => ?_⟩, fun hr => exec_readsReserved hr s⟩
  · by_cases hu : readIsUnspec i s
    · exact ⟨returnUnspec s, exec_openRead hu, rfl⟩
    · exact ⟨returnWord (registerValue i s) s, exec_specifiedRead hi hu, rfl⟩
  · rw [exec_specifiedRead hi (mt (readIsUnspec_readFields i s r d).mp hs), registerValue_readFields]
    rfl

end Sys2Proof.Machine
end

section
/-! The register map on bus operations written out, and the step that takes an access. -/

namespace Sys2Proof.Machine

/-- Settles O2: the fifteen operations are closed, and the decoder computes each. -/
theorem busOperationsDecodeByTheMap : Obligations.BusOperationsDecodeByTheMap := by
  unfold Obligations.BusOperationsDecodeByTheMap
  decide

theorem step_hostTurn {s : State} (h : s.engineTurn = false) : step s = hostStep (beginStep s) := by
  simp [step, h]

theorem hostStep_access {s : State} {c : Code} {rest : List HostItem} (hp : s.pending = .access c :: rest)
    (hr : s.rstN = true) : hostStep s = exec (decode c) (takeItem rest s) := by
  simp [hostStep, hp, hr]

/-- Settles O7: the host's turn, and its next item is an access of a running core. -/
theorem stepRunsTheDecodedAccess : Obligations.StepRunsTheDecodedAccess := by
  intro s c rest hp ht hr
  calc step s
      = hostStep (beginStep s) := step_hostTurn ht
    _ = exec (decode c) (takeItem rest (beginStep s)) := hostStep_access hp hr
    _ = exec (decode c) { s with rdata := none, pending := rest, engineWait := s.engineWait - 1 } := rfl

end Sys2Proof.Machine
end

section
/-! Decoder and encoder against each other. A command word goes through its fields, where the ten canonical words and the rest part;
a bus operation through the one register map that reads and writes share (spec/30_encoding.md R90 to R98). -/

namespace Sys2Proof

/-! ## Command words -/

/-- A command word is its three fields side by side (spec/30_encoding.md R91). -/
theorem rsv_nb_op_fields (v : Word) : rsvField v ++ nbField v ++ opField v = v := by
  unfold rsvField nbField opField
  rw [BitVec.extractLsb'_append_extractLsb'_eq_extractLsb' (show 7 = 4 + 3 from rfl),
    BitVec.extractLsb'_append_extractLsb'_eq_extractLsb' (show 4 = 0 + 4 from rfl)]
  exact BitVec.extractLsb'_eq_self

theorem commandWord_fields {v : Word} (h : rsvField v = 0) : commandWord (nbField v) (opField v) = v := by
  calc commandWord (nbField v) (opField v)
      = rsvField v ++ nbField v ++ opField v := by rw [h]; rfl
    _ = v := rsv_nb_op_fields v

/-- Of the 128 words without a reserved bit, those off the list are BAD_CMD. -/
theorem decodeCommand_commandWord (nb : BitVec 3) (op : BitVec 4) (h : commandWord nb op ∉ commandWords) :
    decodeCommand (commandWord nb op) = .badCmd (commandWord nb op) := by
  decide +revert

theorem decodeCommand_of_rsv {v : Word} (h : rsvField v ≠ 0) : decodeCommand v = .badCmd v := if_pos h

/-- A word off the list of spec/30_encoding.md R102 is BAD_CMD. -/
theorem decodeCommand_of_notMem {v : Word} (h : v ∉ commandWords) : decodeCommand v = .badCmd v := by
  by_cases hr : rsvField v = 0
  · rw [← commandWord_fields hr] at h ⊢
    exact decodeCommand_commandWord _ _ h
  · exact decodeCommand_of_rsv hr

theorem encode_decodeCommand (v : Word) : encode (decodeCommand v).toInstr = .cmd v := by
  by_cases hv : v ∈ commandWords
  · unfold commandWords at hv
    fin_cases hv <;> rfl
  · rw [decodeCommand_of_notMem hv]
    rfl

/-! ## Bus operations -/

theorem idxField_append (we : BitVec 1) (idx : BitVec 6) : idxField (we ++ idx) = idx :=
  BitVec.extractLsb'_append_eq_right

theorem weField_append (we : BitVec 1) (idx : BitVec 6) : weField (we ++ idx) = we.getLsbD 0 :=
  BitVec.getLsbD_append

/-- A bus operation is `WE` and `IDX` side by side (spec/30_encoding.md R90). -/
theorem we_idx_fields (op : BitVec 7) : BitVec.ofBool (weField op) ++ idxField op = op := by
  decide +revert

@[simp] theorem decode_readCode (idx : BitVec 6) : decode (readCode idx) = decodeRead idx := by
  simp [readCode, decode, decodeBus, idxField_append, weField_append]

@[simp] theorem decode_writeCode (idx : BitVec 6) (v : Word) : decode (writeCode idx v) = decodeWrite idx v := by
  simp [writeCode, decode, decodeBus, idxField_append, weField_append]

theorem encode_decodeRead (idx : BitVec 6) : encode (decodeRead idx) = readCode idx := by
  decide +revert

/-- The write of `v` to the register that an instruction reads. -/
def writeOfRead (v : Word) : Instr → Instr
  | .rdInfo => .wrInfo v
  | .rdCmd => .wrCmd v
  | .rdData => .wrData v
  | .rdStatus => .wrStatus v
  | .rdDigest0 => .wrDigest0 v
  | .rdDigest1 => .wrDigest1 v
  | .rdDigest2 => .wrDigest2 v
  | .rdDigest3 => .wrDigest3 v
  | .rdDigest4 => .wrDigest4 v
  | .rdH0 => .wrH0 v
  | .rdH1 => .wrH1 v
  | .rdH2 => .wrH2 v
  | .rdH3 => .wrH3 v
  | .rdH4 => .wrH4 v
  | .rdLenLo => .wrLenLo v
  | .rdLenHi => .wrLenHi v
  | .rdBuflen => .wrBuflen v
  | .rdBuf n => .wrBuf n v
  | .rdReserved9 => .wrReserved9 v
  | .rdReserved10to11 k => .wrReserved10to11 k v
  | .rdReserved12to15 k => .wrReserved12to15 k v
  | .rdReserved24to31 k => .wrReserved24to31 k v
  | .rdReserved48to63 k => .wrReserved48to63 k v
  | i => i

/-- Reads and writes go by the same map (spec/20_memory.md R61). -/
theorem decodeWrite_eq (idx : BitVec 6) (v : Word) : decodeWrite idx v = writeOfRead v (decodeRead idx) := by
  unfold decodeWrite decodeRead
  split
  case h_25 => split_ifs <;> rfl
  all_goals rfl

/-! ## The indices that carry an operand -/

@[simp] theorem decodeRead_reserved10to11 (k : BitVec 1) : decodeRead (0b00101#5 ++ k) = .rdReserved10to11 k := by
  decide +revert
@[simp] theorem decodeRead_reserved12to15 (k : BitVec 2) : decodeRead (0b0011#4 ++ k) = .rdReserved12to15 k := by
  decide +revert
@[simp] theorem decodeRead_reserved24to31 (k : BitVec 3) : decodeRead (0b011#3 ++ k) = .rdReserved24to31 k := by
  decide +revert
@[simp] theorem decodeRead_buf (n : BitVec 4) : decodeRead (0b10#2 ++ n) = .rdBuf n := by
  decide +revert
@[simp] theorem decodeRead_reserved48to63 (k : BitVec 4) : decodeRead (0b11#2 ++ k) = .rdReserved48to63 k := by
  decide +revert

end Sys2Proof
end

section
/-! The statements on decoding and encoding (spec/30_encoding.md R90 to R102), and the step that runs a placed number. -/

namespace Sys2Proof.Machine

/-- Settles O1: the ten words are closed, and the decoder computes each. -/
theorem canonicalWordsDecode : Obligations.CanonicalWordsDecode := by
  unfold Obligations.CanonicalWordsDecode
  decide

/-- Settles O3: an instruction without an operand in its index computes; a BAD_CMD word is off the list; for the others the index is
decoded as a read, and a write follows the read of its register. -/
theorem decodeOfEncodeIsTheInstruction : Obligations.DecodeOfEncodeIsTheInstruction := by
  intro i hi
  cases i
  case badCmd w =>
    have hw : w ∉ commandWords := by simpa [Instr.wellFormed] using hi
    exact congrArg Command.toInstr (decodeCommand_of_notMem hw)
  case updateNb0to3 nb => decide +revert
  case rdBuf k | rdReserved10to11 k | rdReserved12to15 k | rdReserved24to31 k | rdReserved48to63 k =>
    simp [encode]
  case wrBuf k v | wrReserved10to11 k v | wrReserved12to15 k v | wrReserved24to31 k v | wrReserved48to63 k v =>
    simp [encode, decodeWrite_eq, writeOfRead]
  all_goals rfl

/-! ## The encoding of what an encoding decodes to -/

theorem readCode_injective {a b : BitVec 6} (h : readCode a = readCode b) : a = b :=
  (BitVec.append_right_inj _).mp (Code.bus.inj h).1

/-- The encoder gives a read and the write of its register the same index. -/
theorem encode_writeOfRead {i : Instr} (h : isRead i) :
    ∃ idx, encode i = readCode idx ∧ ∀ v, encode (writeOfRead v i) = writeCode idx v := by
  obtain hp | hd | (hc | ⟨n, rfl⟩) | hr := h
  · fin_cases hp <;> exact ⟨_, rfl, fun _ => rfl⟩
  · unfold readsDigest at hd
    fin_cases hd <;> exact ⟨_, rfl, fun _ => rfl⟩
  · fin_cases hc <;> exact ⟨_, rfl, fun _ => rfl⟩
  · exact ⟨_, rfl, fun _ => rfl⟩
  · obtain rfl | ⟨k, rfl⟩ | ⟨k, rfl⟩ | ⟨k, rfl⟩ | ⟨k, rfl⟩ := hr <;> exact ⟨_, rfl, fun _ => rfl⟩

/-- Every index may be read (spec/30_encoding.md R97). -/
theorem isRead_decodeRead (idx : BitVec 6) : isRead (decodeRead idx) := by
  unfold isRead readsDigest readsContext readsReserved
  decide +revert

theorem encode_decodeWrite (idx : BitVec 6) (v : Word) : encode (decodeWrite idx v) = writeCode idx v := by
  obtain ⟨a, hr, hw⟩ := encode_writeOfRead (isRead_decodeRead idx)
  have ha : idx = a := readCode_injective ((encode_decodeRead idx).symm.trans hr)
  rw [decodeWrite_eq, hw, ha]

theorem readCode_idxField {op : BitVec 7} (h : weField op = false) : readCode (idxField op) = .bus op 0 := by
  have hop := we_idx_fields op
  rw [h] at hop
  exact congrArg (Code.bus · 0) hop

theorem writeCode_idxField {op : BitVec 7} (v : Word) (h : weField op = true) :
    writeCode (idxField op) v = .bus op v := by
  have hop := we_idx_fields op
  rw [h] at hop
  exact congrArg (Code.bus · v) hop

theorem decode_bus_read {op : BitVec 7} (v : Word) (h : weField op = false) :
    decode (.bus op v) = decodeRead (idxField op) := by
  simp [decode, decodeBus, h]

theorem decode_bus_write {op : BitVec 7} (v : Word) (h : weField op = true) :
    decode (.bus op v) = decodeWrite (idxField op) v := if_pos h

/-- Settles O4: a command word by the list of the canonical words, a bus operation by its two fields. -/
theorem encodeOfDecodeIsTheWord : Obligations.EncodeOfDecodeIsTheWord := by
  refine ⟨encode_decodeCommand, fun op v => ?_⟩
  change _ = Code.bus op (if weField op then v else 0)
  cases h : weField op
  · rw [decode_bus_read v h, encode_decodeRead, readCode_idxField h]
    rfl
  · rw [decode_bus_write v h, encode_decodeWrite, writeCode_idxField v h]
    rfl

/-! ## Command words that are commands, and those that are none -/

/-- Settles O5: each of the ten words computes, and any other word is off the list. -/
theorem exactlyTenWordsAreCommands : Obligations.ExactlyTenWordsAreCommands := by
  intro v
  by_cases hv : v ∈ commandWords
  · unfold commandWords at hv
    fin_cases hv <;> rfl
  · rw [decodeCommand_of_notMem hv]
    simp only [commandWords, List.mem_cons, List.not_mem_nil, not_or, or_false] at hv
    simp only [hv, if_false]

/-- Settles O25: no word of the list has a reserved field. -/
theorem reservedCommandWordsRaiseBadCmd : Obligations.ReservedCommandWordsRaiseBadCmd := by
  intro w s op nb h
  have hw : w ∉ commandWords := by
    intro hm
    unfold commandWords at hm
    fin_cases hm <;> revert h <;> decide
  refine ⟨?_, rfl⟩
  calc exec (.wrCmd w) s
      = execCommand (decodeCommand w) s := rfl
    _ = execCommand (.badCmd w) s := by rw [decodeCommand_of_notMem hw]
    _ = .next (raise .badCmd s) := rfl

/-! ## A placed number -/

/-- Settles O8: the number lays out an access, which stands first, and the engine waits for it. -/
theorem fetchedWordRunsNext : Obligations.FetchedWordRunsNext := by
  intro s nbits w i h
  obtain ⟨c, hc, rfl⟩ := Option.map_eq_some_iff.mp h
  rw [withFetchWord_some s hc]
  exact stepRunsTheDecodedAccess _ c s.pending rfl (by simp [State.engineTurn]) rfl

end Sys2Proof.Machine
end

section
/-! Which bus operation raises BAD_ADDR (spec/42_context.md R187, R198): every error of another instruction has another code. -/

namespace Sys2Proof.Machine

/-- From `s` to `t` BAD_ADDR was not the error raised. -/
def NoBadAddr (s t : State) : Prop := t.faults ≠ s.faults ++ [.badAddr]

theorem noBadAddr_of_faults {s t : State} (h : t.faults = s.faults) : NoBadAddr s t := by
  simp [NoBadAddr, h]

theorem noBadAddr_raise {c : ErrCode} (s : State) (h : c ≠ .badAddr) : NoBadAddr s (raise c s) := by
  simp [NoBadAddr, h]

theorem noBadAddr_writeContext {f : State → State} {s : State} (h : (f s).faults = s.faults) :
    NoBadAddr s (writeContext f s) := by
  rcases writeContext_cases f s with ⟨-, e⟩ | ⟨-, e⟩ <;> rw [e]
  exacts [noBadAddr_of_faults h, noBadAddr_raise s (by decide)]

theorem noBadAddr_acceptInAbsorb {f : State → State} {s : State} (h : (f s).faults = s.faults) :
    NoBadAddr s (acceptInAbsorb f s) := by
  rcases acceptInAbsorb_cases f s with ⟨-, -, e⟩ | ⟨-, e⟩ | ⟨-, -, e⟩ <;> rw [e]
  exacts [noBadAddr_of_faults h, noBadAddr_raise s (by decide), noBadAddr_raise s (by decide)]

/-- No command raises BAD_ADDR (spec/60_exceptions.md R253). -/
theorem execCommand_noBadAddr (c : Command) (s : State) : ∃ t, execCommand c s = .next t ∧ NoBadAddr s t := by
  cases c with
  | nop | clearErr => exact ⟨_, rfl, noBadAddr_of_faults rfl⟩
  | updateNb0to3 | updateNb4 => exact ⟨_, rfl, noBadAddr_acceptInAbsorb (updateEffect_faults _ s)⟩
  | finalize | finalizeReset => exact ⟨_, rfl, noBadAddr_acceptInAbsorb rfl⟩
  | reset =>
    refine ⟨_, rfl, ?_⟩
    rcases acceptWhenIdle_cases resetEffect s with ⟨-, e⟩ | ⟨-, e⟩ <;> rw [e]
    exacts [noBadAddr_of_faults rfl, noBadAddr_raise s (by decide)]
  | badCmd => exact ⟨_, rfl, noBadAddr_raise s (by decide)⟩

/-- A read raises nothing. -/
theorem exec_read_errors {i : Instr} (h : isRead i) (s : State) :
    ∃ t, exec i s = .next t ∧ t.faults = s.faults ∧ t.err = s.err ∧ t.errcode = s.errcode := by
  obtain ⟨⟨t, ht, e⟩, -⟩ := readsHaveNoSideEffects i s h
  exact ⟨t, ht, (congrArg State.faults e :), (congrArg State.err e :), (congrArg State.errcode e :)⟩

theorem exec_writesBadAddress {i : Instr} (h : writesBadAddress i = true) (s : State) :
    exec i s = .next (raise .badAddr s) := by
  cases i
  case wrInfo | wrStatus | wrDigest0 | wrDigest1 | wrDigest2 | wrDigest3 | wrDigest4 => rfl
  case wrReserved9 | wrReserved10to11 | wrReserved12to15 | wrReserved24to31 | wrReserved48to63 => rfl
  all_goals cases h

/-- A context write raises BUSY or BAD_VALUE or nothing (spec/60_exceptions.md R253). -/
theorem exec_writesContext_noBadAddr {i : Instr} (h : writesContext i = true) (s : State) :
    ∃ t, exec i s = .next t ∧ NoBadAddr s t := by
  cases i
  case wrH0 | wrH1 | wrH2 | wrH3 | wrH4 | wrLenLo | wrLenHi | wrBuf =>
    exact ⟨_, rfl, noBadAddr_writeContext rfl⟩
  case wrBuflen =>
    refine ⟨_, rfl, ?_⟩
    split
    · exact noBadAddr_raise s (by decide)
    · exact noBadAddr_writeContext rfl
  all_goals cases h

theorem writesContext_writeOfRead {i : Instr} (h : readsContext i) (v : Word) :
    writesContext (writeOfRead v i) = true := by
  obtain h | ⟨n, rfl⟩ := h
  · fin_cases h <;> rfl
  · rfl

/-- A write that is not of a read-only register or a reserved index is of CMD, DATA or a context register. -/
theorem exec_writeOfRead_noBadAddr {i : Instr} (hi : isRead i) (v : Word) (s : State)
    (h : writesBadAddress (writeOfRead v i) ≠ true) :
    ∃ t, exec (writeOfRead v i) s = .next t ∧ NoBadAddr s t := by
  obtain hp | hd | hc | hr := hi
  · fin_cases hp
    exacts [absurd rfl h, execCommand_noBadAddr (decodeCommand v) s, ⟨_, rfl, noBadAddr_of_faults rfl⟩, absurd rfl h]
  · unfold readsDigest at hd
    fin_cases hd <;> exact absurd rfl h
  · exact exec_writesContext_noBadAddr (writesContext_writeOfRead hc v) s
  · obtain rfl | ⟨k, rfl⟩ | ⟨k, rfl⟩ | ⟨k, rfl⟩ | ⟨k, rfl⟩ := hr <;> exact absurd rfl h

/-- A bus write raises BAD_ADDR exactly where it writes a read-only register or a reserved index. -/
theorem exec_decodeWrite_badAddr (idx : BitVec 6) (v : Word) (s : State) :
    ∃ t, exec (decodeWrite idx v) s = .next t ∧
      (t.faults = s.faults ++ [.badAddr] ↔ writesBadAddress (decodeWrite idx v) = true) := by
  by_cases h : writesBadAddress (decodeWrite idx v) = true
  · exact ⟨_, exec_writesBadAddress h s, iff_of_true rfl h⟩
  · rw [decodeWrite_eq] at h ⊢
    obtain ⟨t, ht, hn⟩ := exec_writeOfRead_noBadAddr (isRead_decodeRead idx) v s h
    exact ⟨t, ht, iff_of_false hn h⟩

theorem writesBadAddress_writeOfRead (v w : Word) (i : Instr) :
    writesBadAddress (writeOfRead v i) = true ↔ writesBadAddress (writeOfRead w i) = true := by
  cases i <;> rfl

theorem writesBadAddress_decodeWrite (idx : BitVec 6) (v : Word) :
    writesBadAddress (decodeWrite idx v) = true ↔
      idx.toNat = 0 ∨ (3 ≤ idx.toNat ∧ idx.toNat ≤ 15) ∨ (24 ≤ idx.toNat ∧ idx.toNat ≤ 31) ∨ 48 ≤ idx.toNat := by
  rw [decodeWrite_eq, writesBadAddress_writeOfRead v 0]
  decide +revert

/-- Settles O6: WE parts the operations; no read raises, and a write raises BAD_ADDR by its index. -/
theorem illegalBusWritesAreTheBadAddresses : Obligations.IllegalBusWritesAreTheBadAddresses := by
  intro op v s
  cases h : weField op
  · obtain ⟨t, ht, he⟩ := exec_read_errors (isRead_decodeRead (idxField op)) s
    rw [← decode_bus_read v h] at ht
    exact ⟨t, ht, fun _ => he, fun hw => absurd (h.symm.trans hw) (by decide)⟩
  · obtain ⟨t, ht, hb⟩ := exec_decodeWrite_badAddr (idxField op) v s
    rw [← decode_bus_write v h] at ht
    exact ⟨t, ht, fun hr => absurd (h.symm.trans hr) (by decide),
      fun _ => hb.trans (writesBadAddress_decodeWrite (idxField op) v)⟩

end Sys2Proof.Machine
end

section
/-! The commands of the streaming engine behind their checks (spec/40_update_reset.md R120): what each does where it is accepted, what it
raises where it is refused, and how a command in flight goes on. -/

namespace Sys2Proof.Machine

/-! ## The checks -/

theorem acceptInAbsorb_busy {f : State → State} {s : State} (hb : s.inflight ≠ .none) :
    acceptInAbsorb f s = raise .busy s := if_neg hb

theorem acceptWhenIdle_busy {f : State → State} {s : State} (hb : s.inflight ≠ .none) :
    acceptWhenIdle f s = raise .busy s := if_neg hb

theorem exec_update_absorbing {i : Instr} {nb : Nat} {s : State} (hi : IsUpdate i nb) (ha : Absorbing s) :
    exec i s = .next (updateEffect nb s) := by
  obtain ⟨n, rfl, rfl⟩ | ⟨rfl, rfl⟩ := hi
  all_goals exact congrArg Host.Outcome.next (acceptInAbsorb_absorbing ha)

/-! ## A command in flight -/

/-- Only the reads, WR DATA and the error fields of an instruction come through while a command is in flight
(spec/40_update_reset.md R120). -/
theorem effect_inFlight {i : Instr} {s t : State} (e : Effect i s t) (hb : s.inflight ≠ .none) :
    t = { s with
      data := t.data, err := t.err, errcode := t.errcode, rdata := t.rdata, faults := t.faults, draws := t.draws } := by
  cases e with
  | skip | clear | value | draw | error | data => rfl
  | hash _ _ _ _ hn | length _ _ _ _ hn | level _ _ _ hn | bytes _ _ _ hn | reset _ hn => exact absurd hn hb
  | update _ _ _ _ ha | finalize _ ha | finalizeReset _ ha => exact absurd ha.1 hb

/-- Settles O33: no effect that is left in flight writes one of these registers. -/
theorem aCommandInFlightIsNotDisturbed : Obligations.ACommandInFlightIsNotDisturbed := by
  intro i s hb
  obtain ⟨t, ht, e⟩ := exec_effect i s
  have hframe := effect_inFlight e hb
  refine ⟨t, ht, ?_⟩
  rw [hframe]
  exact ⟨rfl, rfl, rfl, rfl, rfl, rfl, rfl, rfl, rfl⟩

theorem step_engineTurn {s : State} (h : s.engineTurn = true) : step s = .next (engineStep (beginStep s)) :=
  if_pos h

/-- Settles O43: the engine's turn comes in flight only, and its move is one of the two of `engineStep_cases`. -/
theorem completionStep : Obligations.CompletionStep := by
  intro s hturn
  have hb : s.inflight ≠ .none := engineTurn_inflight hturn
  refine ⟨hb, _, step_engineTurn hturn, ?_⟩
  rcases engineStep_cases (beginStep s) with ⟨hlast, e⟩ | ⟨hlast, e⟩ <;> rw [e]
  · refine ⟨fun _ => ?_, fun h => absurd (hlast.symm.trans h) (by decide)⟩
    cases hk : s.inflight with
    | none => exact absurd hk hb
    | upd | fin | finr => simp [beginStep, hk]
  · exact ⟨fun h => absurd (hlast.symm.trans h) (by decide), fun _ => rfl⟩

/-! ## NOP, CLEAR_ERR and RESET -/

/-- Settles O34: NOP has no check and no effect. -/
theorem nopChangesNothing : Obligations.NopChangesNothing := fun _ => rfl

/-- Settles O35: of the ten command words only 5 has OP = 5. -/
theorem clearErrEffect : Obligations.ClearErrEffect := by
  refine ⟨fun s => rfl, fun s => rfl, fun s w hop hw => ?_⟩
  have hmem : w ∉ commandWords := by
    intro hm
    unfold commandWords at hm
    fin_cases hm <;> revert hop hw <;> decide
  calc exec (.wrCmd w) s
      = execCommand (decodeCommand w) s := rfl
    _ = execCommand (.badCmd w) s := by rw [decodeCommand_of_notMem hmem]
    _ = .next (raise .badCmd s) := rfl

/-- Settles O36: RESET has the one check BUSY, and its effect names the fields it writes. -/
theorem Commands.resetEffect : Obligations.ResetEffect :=
  fun _ => ⟨exec_reset_idle, fun hb => congrArg Host.Outcome.next (acceptWhenIdle_busy hb)⟩

/-! ## The empty UPDATE -/

@[simp] theorem updateEffect_zero (s : State) : updateEffect 0 s = s := by
  simp [updateEffect, absorb, beatBytes]

/-- Settles O38: where UPDATE is accepted no byte is counted or absorbed, and its two checks come in order. -/
theorem emptyUpdate : Obligations.EmptyUpdate := by
  refine fun s => ⟨fun ha => ?_, fun hi hf => ?_, fun hb => ?_⟩
  · rw [exec_update_absorbing (.inl ⟨0, rfl, rfl⟩) ha]
    exact congrArg Host.Outcome.next (updateEffect_zero s)
  · exact congrArg Host.Outcome.next (acceptInAbsorb_final hi hf)
  · exact congrArg Host.Outcome.next (acceptInAbsorb_busy hb)

end Sys2Proof.Machine
end

section
/-! UPDATE byte by byte (spec/40_update_reset.md R122 to R127): a run of bytes that leaves room, a run that fills the block, and a beat
as the one or the two runs it is. -/

namespace Sys2Proof.Machine

theorem absorb_cons (s : State) (b : Byte) (bs : List Byte) : absorb s (b :: bs) = absorb (absorbByte s b) bs := rfl

theorem absorb_append (s : State) (bs cs : List Byte) : absorb s (bs ++ cs) = absorb (absorb s bs) cs :=
  List.foldl_append

/-! ## Runs of bytes within one block -/

theorem buflen_add_one {n : BitVec 6} (h : n.toNat + 1 < 64) : (n + 1).toNat = n.toNat + 1 := by
  rw [BitVec.toNat_add]
  exact Nat.mod_eq_of_lt h

/-- Bytes that leave room in the block go to the buffer and do nothing else. -/
theorem absorb_open (bs : List Byte) (s : State) (h : s.buflen.toNat + bs.length < 64) :
    absorb s bs = { s with
      buf := putBytes s.buf s.buflen.toNat bs
      buflen := BitVec.ofNat 6 (s.buflen.toNat + bs.length) } := by
  induction bs generalizing s with
  | nil => simp [absorb, putBytes]
  | cons b bs ih =>
    rw [List.length_cons] at h
    have hroom : (s.buflen + 1).toNat = s.buflen.toNat + 1 := buflen_add_one (by omega)
    rw [absorb_cons, absorbByte_open s b (by omega), ih _ (by rw [hroom]; omega), hroom]
    simp only [putBytes, List.length_cons, Nat.add_assoc, Nat.add_comm 1]

/-- Fewer bytes than a block, into an empty buffer. -/
theorem absorb_empty (bs : List Byte) (s : State) (hs : s.buflen = 0) (h : bs.length < 64) :
    absorb s bs = { s with buf := putBytes s.buf 0 bs, buflen := BitVec.ofNat 6 bs.length } := by
  have hn : s.buflen.toNat = 0 := by rw [hs]; rfl
  rw [absorb_open bs s (by omega), hn, Nat.zero_add]

/-- Bytes that end with the block's last one leave it compressed and start the command on it. -/
theorem absorb_full (bs : List Byte) (s : State) (h : s.buflen.toNat + bs.length = 64) :
    absorb s bs = launch .upd s.h [putBytes s.buf s.buflen.toNat bs] { s with
      buf := putBytes s.buf s.buflen.toNat bs
      h := compress s.h (putBytes s.buf s.buflen.toNat bs)
      buflen := 0 } := by
  induction bs generalizing s with
  | nil => exact absurd h (by have := s.buflen.isLt; simp only [List.length_nil]; omega)
  | cons b bs ih =>
    rw [List.length_cons] at h
    cases bs with
    | nil => exact absorbByte_full s b (by simpa using h)
    | cons c cs =>
      rw [List.length_cons] at h
      have hroom : (s.buflen + 1).toNat = s.buflen.toNat + 1 := buflen_add_one (by omega)
      rw [absorb_cons, absorbByte_open s b (by omega), ih _ (by rw [hroom, List.length_cons]; omega), hroom]
      rfl

/-- Bytes that come after the one that filled the block start the next, while the command is in flight. -/
theorem absorb_launch (bs : List Byte) (s : State) (m : Buffer) (H : Hash) (h : bs.length < 64) :
    absorb (launch .upd s.h [m] { s with buf := m, h := H, buflen := 0 }) bs = { s with
      h := H
      buf := putBytes m 0 bs
      buflen := BitVec.ofNat 6 bs.length
      inflight := .upd
      unit := s.unit.start Config.form s.h [m]
      engineWait := Config.hostAccesses s.draws
      draws := s.draws + 1 } := by
  rw [absorb_empty _ _ rfl h]
  rfl

/-- The block that bytes fill, or would fill, after those that were there. -/
def filledBlock (s : State) (bs : List Byte) : Buffer := putBytes s.buf s.buflen.toNat (bs.take (64 - s.buflen.toNat))

/-- Bytes that fill one block and not a second: the first ones fill it, the others start the next. -/
theorem absorb_across (bs : List Byte) (s : State) (hfull : 64 ≤ s.buflen.toNat + bs.length)
    (hnext : s.buflen.toNat + bs.length < 128) :
    absorb s bs = { s with
      h := compress s.h (filledBlock s bs)
      buf := putBytes (filledBlock s bs) 0 (bs.drop (64 - s.buflen.toNat))
      buflen := BitVec.ofNat 6 (s.buflen.toNat + bs.length - 64)
      inflight := .upd
      unit := s.unit.start Config.form s.h [filledBlock s bs]
      engineWait := Config.hostAccesses s.draws
      draws := s.draws + 1 } := by
  have hlt := s.buflen.isLt
  have hfirst : s.buflen.toNat + (bs.take (64 - s.buflen.toNat)).length = 64 := by rw [List.length_take]; omega
  have hrest : (bs.drop (64 - s.buflen.toNat)).length = s.buflen.toNat + bs.length - 64 := by
    rw [List.length_drop]; omega
  have hsplit : absorb s bs = absorb (absorb s (bs.take (64 - s.buflen.toNat))) (bs.drop (64 - s.buflen.toNat)) := by
    rw [← absorb_append, List.take_append_drop]
  rw [hsplit, absorb_full _ _ hfirst, absorb_launch _ _ _ _ (by omega), hrest, filledBlock]

/-! ## A beat -/

theorem isUpdate_le {i : Instr} {nb : Nat} (h : IsUpdate i nb) : nb ≤ 4 := by
  obtain ⟨n, -, rfl⟩ | ⟨-, rfl⟩ := h <;> omega

/-- The bytes of a beat are the first lanes of DATA (spec/40_update_reset.md R123). -/
theorem beatBytes_getD {nb k : Nat} (v : Word) (hnb : nb ≤ 4) (hk : k < nb) : (beatBytes nb v).getD k 0 = lane v k := by
  rw [beatBytes, List.getD_eq_getElem?_getD, List.getElem?_take_of_lt hk]
  obtain rfl | rfl | rfl | rfl : k = 0 ∨ k = 1 ∨ k = 2 ∨ k = 3 := by omega
  all_goals rfl

section
variable {nb : Nat} (s : State) (hnb : nb ≤ 4)
include hnb

/-- A beat that leaves room in the block. -/
theorem updateEffect_open (h : s.buflen.toNat + nb < 64) :
    updateEffect nb s = { s with
      len := s.len + BitVec.ofNat 64 nb
      buf := putBytes s.buf s.buflen.toNat (beatBytes nb s.data)
      buflen := BitVec.ofNat 6 (s.buflen.toNat + nb) } := by
  have hlen : (beatBytes nb s.data).length = nb := by rw [beatBytes_length, Nat.min_eq_left hnb]
  rw [updateEffect, absorb_open _ _ (by rwa [hlen]), hlen]

/-- A beat that fills the block. -/
theorem updateEffect_full (h : 64 ≤ s.buflen.toNat + nb) :
    updateEffect nb s = { s with
      len := s.len + BitVec.ofNat 64 nb
      h := compress s.h (filledBlock s (beatBytes nb s.data))
      buf := putBytes (filledBlock s (beatBytes nb s.data)) 0 ((beatBytes nb s.data).drop (64 - s.buflen.toNat))
      buflen := BitVec.ofNat 6 (s.buflen.toNat + nb - 64)
      inflight := .upd
      unit := s.unit.start Config.form s.h [filledBlock s (beatBytes nb s.data)]
      engineWait := Config.hostAccesses s.draws
      draws := s.draws + 1 } := by
  have hlt := s.buflen.isLt
  have hlen : (beatBytes nb s.data).length = nb := by rw [beatBytes_length, Nat.min_eq_left hnb]
  have hnext : s.buflen.toNat + nb < 128 := by omega
  rw [updateEffect, absorb_across _ _ (by rwa [hlen]) (by rwa [hlen]), hlen]
  rfl

theorem byteAt_putBeat {j : Nat} (hj : j < 64) :
    byteAt (putBytes s.buf s.buflen.toNat (beatBytes nb s.data)) j =
      if s.buflen.toNat ≤ j ∧ j < s.buflen.toNat + nb then lane s.data (j - s.buflen.toNat) else byteAt s.buf j := by
  rw [byteAt_putBytes _ _ _ _ hj, beatBytes_length, Nat.min_eq_left hnb]
  split
  · next hin => exact beatBytes_getD _ hnb (by omega)
  · rfl

theorem byteAt_filledBlock (h : 64 ≤ s.buflen.toNat + nb) {j : Nat} (hj : j < 64) :
    byteAt (filledBlock s (beatBytes nb s.data)) j =
      if s.buflen.toNat ≤ j then lane s.data (j - s.buflen.toNat) else byteAt s.buf j := by
  have hlt := s.buflen.isLt
  rw [filledBlock, byteAt_putBytes _ _ _ _ hj, List.length_take, beatBytes_length]
  by_cases hin : s.buflen.toNat ≤ j
  · rw [if_pos hin, if_pos (by omega), List.getD_eq_getElem?_getD, List.getElem?_take_of_lt (by omega),
      ← List.getD_eq_getElem?_getD, beatBytes_getD _ hnb (by omega)]
  · rw [if_neg hin, if_neg (by omega)]

/-- The bytes of a beat that the filled block has no room for. -/
theorem byteAt_putRest (m : Buffer) {j : Nat} (hj : j < 64) :
    byteAt (putBytes m 0 ((beatBytes nb s.data).drop (64 - s.buflen.toNat))) j =
      if j < s.buflen.toNat + nb - 64 then lane s.data (64 - s.buflen.toNat + j) else byteAt m j := by
  have hlt := s.buflen.isLt
  rw [byteAt_putBytes _ _ _ _ hj, List.length_drop, beatBytes_length]
  by_cases hin : j < s.buflen.toNat + nb - 64
  · rw [if_pos hin, if_pos (by omega), List.getD_eq_getElem?_getD, List.getElem?_drop, ← List.getD_eq_getElem?_getD,
      beatBytes_getD _ hnb (by omega), Nat.sub_zero]
  · rw [if_neg hin, if_neg (by omega)]

end

/-- Settles O37: the beat leaves room in the block or fills it, and each of its bytes is a lane of DATA. -/
theorem Commands.updateEffect : Obligations.UpdateEffect := by
  intro i nb s hi ha
  have hnb := isUpdate_le hi
  rw [exec_update_absorbing hi ha]
  constructor
  · intro h
    rw [updateEffect_open s hnb h]
    exact ⟨_, rfl, fun j hj => byteAt_putBeat s hnb hj⟩
  · intro h
    rw [updateEffect_full s hnb h]
    exact ⟨_, _, rfl, fun j hj => byteAt_filledBlock s hnb h hj, fun j hj => byteAt_putRest s hnb _ hj, rfl⟩

end Sys2Proof.Machine
end

section
/-! Two cores that have absorbed the same bytes, whatever stale bytes their buffers hold: they stay so as they absorb further bytes, and
a finalize pads and compresses the same blocks in both (spec/40_update_reset.md R128, spec/41_finalize.md R162). -/

namespace Sys2Proof.Machine

/-- Two cores with the same hash state and the same bytes of an unfinished block. LEN is left out: UPDATE counts a beat whole before it
absorbs the beat's bytes. -/
structure SameAbsorbed (s t : State) : Prop where
  h : s.h = t.h
  buflen : s.buflen = t.buflen
  message : ∀ j < s.buflen.toNat, byteAt s.buf j = byteAt t.buf j

theorem SameAbsorbed.refl (s : State) : SameAbsorbed s s := ⟨rfl, rfl, fun _ _ => rfl⟩

theorem SameAbsorbed.symm {s t : State} (e : SameAbsorbed s t) : SameAbsorbed t s :=
  ⟨e.h.symm, e.buflen.symm, fun j hj => (e.message j (e.buflen ▸ hj)).symm⟩

theorem SameAbsorbed.trans {s t u : State} (e : SameAbsorbed s t) (f : SameAbsorbed t u) : SameAbsorbed s u :=
  ⟨e.h.trans f.h, e.buflen.trans f.buflen, fun j hj => (e.message j hj).trans (f.message j (e.buflen ▸ hj))⟩

theorem sameAbsorbed_complete (s : State) : SameAbsorbed (complete s) s := by
  rw [complete_eq]
  exact ⟨rfl, rfl, fun _ _ => rfl⟩

/-! ## Absorbing further bytes -/

theorem byteAt_putByte_of_sameAbsorbed {s t : State} (e : SameAbsorbed s t) (b : Byte) {j : Nat}
    (hj : j < s.buflen.toNat + 1) :
    byteAt (putByte s.buf s.buflen.toNat b) j = byteAt (putByte t.buf t.buflen.toNat b) j := by
  have hlt := s.buflen.isLt
  rw [byteAt_putByte _ _ _ _ (by omega), byteAt_putByte _ _ _ _ (by omega), ← e.buflen]
  split
  · rfl
  · exact e.message j (by omega)

/-- Both compress one block `m` to one hash state `H`, and start the next block. -/
theorem sameAbsorbed_launch (s t : State) (G H : Hash) (m : Buffer) :
    SameAbsorbed (launch .upd G [m] { s with buf := m, h := H, buflen := 0 })
      (launch .upd G [m] { t with buf := m, h := H, buflen := 0 }) :=
  ⟨rfl, rfl, fun _ _ => rfl⟩

theorem sameAbsorbed_absorbByte {s t : State} (e : SameAbsorbed s t) (b : Byte) :
    SameAbsorbed (absorbByte s b) (absorbByte t b) := by
  by_cases hfull : s.buflen.toNat + 1 = 64
  · have hblock : putByte s.buf s.buflen.toNat b = putByte t.buf t.buflen.toNat b :=
      buffer_ext fun j hj => byteAt_putByte_of_sameAbsorbed e b (by omega)
    rw [absorbByte_full s b hfull, absorbByte_full t b (e.buflen ▸ hfull), hblock, e.h]
    exact sameAbsorbed_launch s t _ _ _
  · have hroom : s.buflen.toNat + 1 < 64 := by have := s.buflen.isLt; omega
    rw [absorbByte_open s b hroom, absorbByte_open t b (e.buflen ▸ hroom)]
    refine ⟨e.h, congrArg (· + 1) e.buflen, fun j hj => byteAt_putByte_of_sameAbsorbed e b ?_⟩
    rwa [← buflen_add_one hroom]

theorem sameAbsorbed_absorb {s t : State} (e : SameAbsorbed s t) (bs : List Byte) :
    SameAbsorbed (absorb s bs) (absorb t bs) := by
  induction bs generalizing s t with
  | nil => exact e
  | cons b bs ih => exact ih (sameAbsorbed_absorbByte e b)

/-! ## Finalizing -/

section
variable {L : Nat} {m m' : Buffer} (h : ∀ j < L, byteAt m j = byteAt m' j)
include h

/-- Steps 1 and 2 of the padding overwrite every byte from BUFLEN on, as far as they go (spec/41_finalize.md R152). -/
theorem byteAt_markedZeros_congr {hi j : Nat} (hj : j < 64) (hlt : j < hi) :
    byteAt (zeroBytes (putByte m L 0x80) (L + 1) hi) j = byteAt (zeroBytes (putByte m' L 0x80) (L + 1) hi) j := by
  rw [byteAt_zeroBytes _ _ _ _ hj, byteAt_zeroBytes _ _ _ _ hj, byteAt_putByte _ _ _ _ hj, byteAt_putByte _ _ _ _ hj]
  split
  · rfl
  · split
    · rfl
    · exact h j (by omega)

/-- Stale bytes never reach a padding block (spec/41_finalize.md R162). -/
theorem padBlocks_congr (len : BitVec 64) : padBlocks len L m = padBlocks len L m' := by
  unfold padBlocks
  split
  · refine congrArg (List.cons · []) (buffer_ext fun j hj => ?_)
    rw [putLength, putLength, byteAt_putBytes _ _ _ _ hj, byteAt_putBytes _ _ _ _ hj, be64_length]
    split
    · rfl
    · exact byteAt_markedZeros_congr h hj (by omega)
  · have hfirst : zeroBytes (putByte m L 0x80) (L + 1) 64 = zeroBytes (putByte m' L 0x80) (L + 1) 64 :=
      buffer_ext fun j hj => byteAt_markedZeros_congr h hj hj
    simp only [hfirst]

end

theorem padBlocks_of_sameAbsorbed {s t : State} (e : SameAbsorbed s t) (hlen : s.len = t.len) :
    s.padBlocks = t.padBlocks := by
  rw [State.padBlocks, State.padBlocks, padBlocks_congr e.message s.len, hlen, e.buflen]

/-- Either finalize, where it is accepted, latches the compression of the padding blocks (spec/41_finalize.md R154). -/
theorem exec_finalizing {i : Instr} {s : State} (hi : i = .finalize ∨ i = .finalizeReset) (ha : Absorbing s) :
    ∃ t, exec i s = .next t ∧ t.digest = compressAll s.h s.padBlocks := by
  obtain rfl | rfl := hi
  · exact ⟨finalizeEffect s, exec_finalize_absorbing ha, rfl⟩
  · exact ⟨finalizeResetEffect s, congrArg Host.Outcome.next (acceptInAbsorb_absorbing ha), rfl⟩

theorem digest_of_sameAbsorbed {i : Instr} {s t : State} (hi : i = .finalize ∨ i = .finalizeReset) (e : SameAbsorbed s t)
    (hlen : s.len = t.len) (hs : Absorbing s) (ht : Absorbing t) :
    ∃ u v, exec i s = .next u ∧ exec i t = .next v ∧ u.digest = v.digest := by
  obtain ⟨u, hu, du⟩ := exec_finalizing hi hs
  obtain ⟨v, hv, dv⟩ := exec_finalizing hi ht
  exact ⟨u, v, hu, hv, by rw [du, dv, e.h, padBlocks_of_sameAbsorbed e hlen]⟩

/-! ## Beats -/

theorem after_eq_of_exec {i : Instr} {s t : State} (h : exec i s = .next t) : after i s = t := by
  simp [after, h]

/-- The command words of UPDATE (spec/30_encoding.md R102). -/
theorem isUpdate_updateWord {n : Nat} (h : n ≤ 4) : IsUpdate (issued (.wrCmd (Asm.updateWord n))) n := by
  interval_cases n
  exacts [.inl ⟨0, rfl, rfl⟩, .inl ⟨1, rfl, rfl⟩, .inl ⟨2, rfl, rfl⟩, .inl ⟨3, rfl, rfl⟩, .inr ⟨rfl, rfl⟩]

/-- A beat counts its bytes and absorbs them (spec/40_update_reset.md R122, R123). -/
theorem feedBeat_eq {s : State} {bs : List Byte} (ha : Absorbing s) (hbs : bs.length ≤ 4) :
    feedBeat s bs =
      complete (absorb { s with data := Asm.packBeat bs, len := s.len + BitVec.ofNat 64 bs.length } bs) := by
  have hdata : after (.wrData (Asm.packBeat bs)) s = { s with data := Asm.packBeat bs } := rfl
  rw [feedBeat, hdata]
  have hexec : exec (.wrCmd (Asm.updateWord bs.length)) { s with data := Asm.packBeat bs } = _ :=
    (exec_issued _ _).symm.trans (exec_update_absorbing (isUpdate_updateWord hbs) ha)
  rw [after_eq_of_exec hexec, updateEffect, beatBytes_packBeat bs hbs]

theorem absorb_len (s : State) (bs : List Byte) : (absorb s bs).len = s.len := by rw [absorb_frame]
theorem absorb_final (s : State) (bs : List Byte) : (absorb s bs).final = s.final := by rw [absorb_frame]

theorem complete_len (s : State) : (complete s).len = s.len := by rw [complete_eq]

theorem absorbing_complete {s : State} (h : s.final = false) : Absorbing (complete s) := by
  rw [complete_eq]
  exact ⟨rfl, h⟩

section
variable {s : State} {bs : List Byte} (ha : Absorbing s) (hbs : bs.length ≤ 4)
include ha hbs

theorem absorbing_feedBeat : Absorbing (feedBeat s bs) := by
  rw [feedBeat_eq ha hbs]
  exact absorbing_complete ((absorb_final _ _).trans ha.2)

theorem feedBeat_len : (feedBeat s bs).len = s.len + BitVec.ofNat 64 bs.length := by
  rw [feedBeat_eq ha hbs, complete_len, absorb_len]

theorem sameAbsorbed_feedBeat : SameAbsorbed (feedBeat s bs) (absorb s bs) := by
  rw [feedBeat_eq ha hbs]
  refine (sameAbsorbed_complete _).trans (sameAbsorbed_absorb ?_ bs)
  exact ⟨rfl, rfl, fun _ _ => rfl⟩

end

/-- Beats count and absorb their concatenation, and the next command is accepted. -/
theorem feed_flatten {s : State} {beats : List (List Byte)} (ha : Absorbing s) (hfit : BeatsFit beats) :
    Absorbing (feed s beats) ∧ (feed s beats).len = s.len + BitVec.ofNat 64 beats.flatten.length ∧
      SameAbsorbed (feed s beats) (absorb s beats.flatten) := by
  induction beats generalizing s with
  | nil => exact ⟨ha, by simp [feed], .refl s⟩
  | cons bs beats ih =>
    have hbs : bs.length ≤ 4 := hfit bs List.mem_cons_self
    obtain ⟨habs, hlen, hsame⟩ := ih (absorbing_feedBeat ha hbs) fun b hb => hfit b (List.mem_cons_of_mem _ hb)
    refine ⟨habs, hlen.trans ?_, hsame.trans ?_⟩
    · rw [feedBeat_len ha hbs, List.flatten_cons, List.length_append, BitVec.ofNat_add, BitVec.add_assoc]
    · rw [List.flatten_cons, absorb_append]
      exact sameAbsorbed_absorb (sameAbsorbed_feedBeat ha hbs) _

/-- Settles O57: both ways absorb the same concatenation. -/
theorem chunkingDoesNotMatter : Obligations.ChunkingDoesNotMatter := by
  intro s beats₁ beats₂ ha hfit₁ hfit₂ hflat
  obtain ⟨ha₁, hlen₁, e₁⟩ := feed_flatten ha hfit₁
  obtain ⟨ha₂, hlen₂, e₂⟩ := feed_flatten ha hfit₂
  rw [hflat] at hlen₁ e₁
  have hlen := hlen₁.trans hlen₂.symm
  have e := e₁.trans e₂.symm
  exact ⟨e.h, hlen, e.buflen, e.message, fun i hi => digest_of_sameAbsorbed (by simpa using hi) e hlen ha₁ ha₂⟩

end Sys2Proof.Machine
end

section
/-! Two cores that are the same engine but for stale bytes stay so: whatever they run that writes no BUFLEN, and at a completion
(spec/41_finalize.md R162). After RESET and after hardware reset a core is the same engine (spec/40_update_reset.md R131). -/

namespace Sys2Proof.Machine

theorem SameEngine.absorbed {s t : State} (e : SameEngine s t) : SameAbsorbed s t := ⟨e.h, e.buflen, e.message⟩

theorem SameEngine.absorbing {s t : State} (e : SameEngine s t) (h : Absorbing s) : Absorbing t :=
  ⟨e.inflight ▸ h.1, e.final ▸ h.2⟩

theorem SameEngine.symm {s t : State} (e : SameEngine s t) : SameEngine t s :=
  ⟨e.h.symm, e.len.symm, e.buflen.symm, e.absorbed.symm.message, e.final.symm, e.inflight.symm, e.data.symm⟩

theorem SameEngine.trans {s t u : State} (e : SameEngine s t) (f : SameEngine t u) : SameEngine s u :=
  ⟨e.h.trans f.h, e.len.trans f.len, e.buflen.trans f.buflen, (e.absorbed.trans f.absorbed).message,
    e.final.trans f.final, e.inflight.trans f.inflight, e.data.trans f.data⟩

/-- An operation takes two cores that are the same engine to two that are. -/
def KeepsSameEngine (f : State → State) : Prop := ∀ ⦃s t : State⦄, SameEngine s t → SameEngine (f s) (f t)

/-! ## What leaves the engine alone -/

theorem refusedAfterFinal_of_isUpdate {i : Instr} {nb : Nat} (h : IsUpdate i nb) : refusedAfterFinal i = true := by
  obtain ⟨n, rfl, -⟩ | ⟨rfl, -⟩ := h <;> rfl

/-- The engine is moved by the writes of DATA and of the context and by the commands that BUSY refuses, and by nothing else. -/
theorem effect_sameEngine {i : Instr} {s t : State} (e : Effect i s t) (hw : writesContext i = false)
    (hc : refusedAfterFinal i = false) (hr : i ≠ .reset) (hd : ∀ v, i ≠ .wrData v) : SameEngine s t := by
  cases e with
  | skip | clear | value | draw | error => exact ⟨rfl, rfl, rfl, fun _ _ => rfl, rfl, rfl, rfl⟩
  | data _ v => exact absurd rfl (hd v)
  | hash _ _ _ h | length _ _ _ h => exact absurd (hw.symm.trans h) Bool.false_ne_true
  | level | bytes => exact absurd hw.symm Bool.false_ne_true
  | reset => exact absurd rfl hr
  | update _ _ _ h => exact absurd (hc.symm.trans (refusedAfterFinal_of_isUpdate h)) Bool.false_ne_true
  | finalize | finalizeReset => exact absurd hc.symm Bool.false_ne_true

theorem effect_after (i : Instr) (s : State) : Effect (issued i) s (after i s) := effect_of_exec (exec_after i s)

/-! ## The bytes of a beat -/

theorem absorb_data (s : State) (bs : List Byte) : (absorb s bs).data = s.data := by rw [absorb_frame]

/-- A byte starts a command exactly where it fills the block. -/
theorem absorbByte_inflight (s : State) (b : Byte) :
    (absorbByte s b).inflight = if s.buflen.toNat + 1 = 64 then .upd else s.inflight := by
  by_cases hfull : s.buflen.toNat + 1 = 64
  · rw [absorbByte_full s b hfull, launch_inflight, if_pos hfull]
  · rw [absorbByte_open s b (by have := s.buflen.isLt; omega), if_neg hfull]

theorem absorb_inflight_congr {s t : State} (e : SameAbsorbed s t) (hi : s.inflight = t.inflight) (bs : List Byte) :
    (absorb s bs).inflight = (absorb t bs).inflight := by
  induction bs generalizing s t with
  | nil => exact hi
  | cons b bs ih =>
    refine ih (sameAbsorbed_absorbByte e b) ?_
    rw [absorbByte_inflight, absorbByte_inflight, e.buflen, hi]

theorem sameEngine_absorb {s t : State} (e : SameEngine s t) (bs : List Byte) :
    SameEngine (absorb s bs) (absorb t bs) where
  h := (sameAbsorbed_absorb e.absorbed bs).h
  len := by rw [absorb_len, absorb_len, e.len]
  buflen := (sameAbsorbed_absorb e.absorbed bs).buflen
  message := (sameAbsorbed_absorb e.absorbed bs).message
  final := by rw [absorb_final, absorb_final, e.final]
  inflight := absorb_inflight_congr e.absorbed e.inflight bs
  data := by rw [absorb_data, absorb_data, e.data]

/-! ## The effects of the accesses that move the engine -/

theorem keepsSameEngine_mapHash (g : Hash → Hash) : KeepsSameEngine fun s => { s with h := g s.h } :=
  fun _ _ e => ⟨congrArg g e.h, e.len, e.buflen, e.message, e.final, e.inflight, e.data⟩

theorem keepsSameEngine_mapLen (g : BitVec 64 → BitVec 64) : KeepsSameEngine fun s => { s with len := g s.len } :=
  fun _ _ e => ⟨e.h, congrArg g e.len, e.buflen, e.message, e.final, e.inflight, e.data⟩

theorem keepsSameEngine_setData (v : Word) : KeepsSameEngine fun s => { s with data := v } :=
  fun _ _ e => ⟨e.h, e.len, e.buflen, e.message, e.final, e.inflight, rfl⟩

theorem keepsSameEngine_putBufWord (n : BitVec 4) (v : Word) :
    KeepsSameEngine fun s => { s with buf := putBufWord s.buf n v } := by
  refine fun s t e => ⟨e.h, e.len, e.buflen, fun j hj => ?_, e.final, e.inflight, e.data⟩
  have hj64 : j < 64 := hj.trans s.buflen.isLt
  change byteAt (putBytes _ _ _) j = byteAt (putBytes _ _ _) j
  rw [byteAt_putBytes _ _ _ _ hj64, byteAt_putBytes _ _ _ _ hj64, e.message j hj]

theorem keepsSameEngine_updateEffect (nb : Nat) : KeepsSameEngine (updateEffect nb) := by
  intro s t e
  have hbeat : beatBytes nb s.data = beatBytes nb t.data := by rw [e.data]
  rw [updateEffect, updateEffect, hbeat]
  exact sameEngine_absorb (keepsSameEngine_mapLen (· + BitVec.ofNat 64 nb) e) _

theorem keepsSameEngine_resetEffect : KeepsSameEngine resetEffect :=
  fun _ _ e => ⟨rfl, rfl, rfl, fun j hj => absurd hj (Nat.not_lt_zero j), rfl, e.inflight, e.data⟩

theorem keepsSameEngine_finalizeEffect : KeepsSameEngine finalizeEffect := fun s t e =>
  { h := by simp [finalizeEffect, e.h, padBlocks_of_sameAbsorbed e.absorbed e.len]
    len := e.len
    buflen := rfl
    message := fun j hj => absurd hj (Nat.not_lt_zero j)
    final := rfl
    inflight := rfl
    data := e.data }

theorem keepsSameEngine_finalizeResetEffect : KeepsSameEngine finalizeResetEffect :=
  fun _ _ e => ⟨rfl, rfl, rfl, fun j hj => absurd hj (Nat.not_lt_zero j), e.final, rfl, e.data⟩

theorem keepsSameEngine_complete : KeepsSameEngine complete := by
  intro s t e
  rw [complete_eq, complete_eq]
  exact ⟨e.h, e.len, e.buflen, e.message, e.final, rfl, e.data⟩

/-! ## The checks -/

theorem keepsSameEngine_raise (c : ErrCode) : KeepsSameEngine (raise c) :=
  fun _ _ e => ⟨e.h, e.len, e.buflen, e.message, e.final, e.inflight, e.data⟩

section
variable {f : State → State} (hf : KeepsSameEngine f)
include hf

theorem keepsSameEngine_writeContext : KeepsSameEngine (writeContext f) := by
  intro s t e
  unfold writeContext
  rw [← e.inflight]
  split
  exacts [hf e, keepsSameEngine_raise .busy e]

theorem keepsSameEngine_acceptWhenIdle : KeepsSameEngine (acceptWhenIdle f) :=
  keepsSameEngine_writeContext hf

theorem keepsSameEngine_acceptInAbsorb : KeepsSameEngine (acceptInAbsorb f) := by
  intro s t e
  unfold acceptInAbsorb
  rw [← e.inflight, ← e.final]
  split
  · split
    exacts [keepsSameEngine_raise .afterFinal e, hf e]
  · exact keepsSameEngine_raise .busy e

end

/-! ## Instructions and events -/

theorem keepsSameEngine_quiet {i : Instr} (hw : writesContext (issued i) = false)
    (hc : refusedAfterFinal (issued i) = false) (hr : issued i ≠ .reset) (hd : ∀ v, issued i ≠ .wrData v) :
    KeepsSameEngine (after i) := fun s t e =>
  (effect_sameEngine (effect_after i s) hw hc hr hd).symm.trans
    (e.trans (effect_sameEngine (effect_after i t) hw hc hr hd))

theorem keepsSameEngine_command (c : Command) : KeepsSameEngine (after c.toInstr) := by
  cases c with
  | nop | clearErr | badCmd => exact keepsSameEngine_quiet rfl rfl nofun nofun
  | updateNb0to3 | updateNb4 => exact keepsSameEngine_acceptInAbsorb (keepsSameEngine_updateEffect _)
  | finalize => exact keepsSameEngine_acceptInAbsorb keepsSameEngine_finalizeEffect
  | finalizeReset => exact keepsSameEngine_acceptInAbsorb keepsSameEngine_finalizeResetEffect
  | reset => exact keepsSameEngine_acceptWhenIdle keepsSameEngine_resetEffect

theorem after_wrCmd (v : Word) : after (.wrCmd v) = after (decodeCommand v).toInstr :=
  funext fun s => after_eq_of_exec ((exec_issued _ s).symm.trans (exec_after _ s))

/-- A write of BUFLEN alone can make stale bytes part of the message (spec/41_finalize.md R162, spec/42_context.md R194). -/
theorem keepsSameEngine_after {i : Instr} (hi : ∀ v, i ≠ .wrBuflen v) : KeepsSameEngine (after i) := by
  cases i
  case wrCmd v => rw [after_wrCmd]; exact keepsSameEngine_command (decodeCommand v)
  case updateNb0to3 nb => exact keepsSameEngine_command (.updateNb0to3 nb)
  case updateNb4 => exact keepsSameEngine_command .updateNb4
  case finalize => exact keepsSameEngine_command .finalize
  case finalizeReset => exact keepsSameEngine_command .finalizeReset
  case reset => exact keepsSameEngine_command .reset
  case wrData v => exact keepsSameEngine_setData v
  case wrH0 v => exact keepsSameEngine_writeContext (keepsSameEngine_mapHash fun H => { H with h0 := v })
  case wrH1 v => exact keepsSameEngine_writeContext (keepsSameEngine_mapHash fun H => { H with h1 := v })
  case wrH2 v => exact keepsSameEngine_writeContext (keepsSameEngine_mapHash fun H => { H with h2 := v })
  case wrH3 v => exact keepsSameEngine_writeContext (keepsSameEngine_mapHash fun H => { H with h3 := v })
  case wrH4 v => exact keepsSameEngine_writeContext (keepsSameEngine_mapHash fun H => { H with h4 := v })
  case wrLenLo v => exact keepsSameEngine_writeContext (keepsSameEngine_mapLen (withLenLo · v))
  case wrLenHi v => exact keepsSameEngine_writeContext (keepsSameEngine_mapLen (withLenHi · v))
  case wrBuflen v => exact absurd rfl (hi v)
  case wrBuf n v => exact keepsSameEngine_writeContext (keepsSameEngine_putBufWord n v)
  all_goals exact keepsSameEngine_quiet rfl rfl nofun nofun

theorem keepsSameEngine_afterEvents {es : List Event} (hes : NoBuflenWrite es) :
    KeepsSameEngine (afterEvents · es) := by
  induction es with
  | nil => exact fun _ _ e => e
  | cons ev es ih =>
    have hrest := ih fun v hv => hes v (List.mem_cons_of_mem _ hv)
    cases ev with
    | instr i =>
      have hi : ∀ v, i ≠ .wrBuflen v := fun v h => hes v (by rw [h]; exact List.mem_cons_self)
      exact fun _ _ e => hrest (keepsSameEngine_after hi e)
    | completion => exact fun _ _ e => hrest (keepsSameEngine_complete e)

/-! ## RESET -/

/-- RESET keeps the buffer, of which nothing is left in use (spec/40_update_reset.md R131). -/
theorem sameEngine_reset_hardwareReset {s : State} (hi : s.inflight = .none) :
    SameEngine (resetEffect s) { hardwareReset s with data := s.data } :=
  ⟨rfl, rfl, rfl, fun j hj => absurd hj (Nat.not_lt_zero j), rfl, hi, rfl⟩

/-- Settles O56: the two start as the same engine and stay so, and a finalize then pads the same blocks. -/
theorem resetEngineIsAFreshEngine : Obligations.ResetEngineIsAFreshEngine := by
  intro s t es i hi ht hes
  have hstart : SameEngine t { hardwareReset s with data := s.data } := by
    cases (exec_reset_idle hi).symm.trans ht
    exact sameEngine_reset_hardwareReset hi
  have e := keepsSameEngine_afterEvents hes hstart
  refine ⟨e, fun hfin ha => ?_⟩
  obtain ⟨u, v, hu, hv, hdigest⟩ := digest_of_sameAbsorbed hfin e.absorbed e.len ha (e.absorbing ha)
  rw [after_eq_of_exec hu, after_eq_of_exec hv, hdigest]

end Sys2Proof.Machine
end

section
/-! Stale bytes, DIGEST with DVALID, and the fill of the buffer, each over every instruction (spec/41_finalize.md R159, R162, R164). -/

namespace Sys2Proof.Machine

/-! ## Stale bytes -/

/-- Settles O55: every instruction but a write of BUFLEN keeps two cores the same engine, and the same engine pads the same blocks. -/
theorem staleBytesNeverReachADigest : Obligations.StaleBytesNeverReachADigest := by
  intro i s₁ s₂ t₁ t₂ e hi h₁ h₂
  have hkeeps := keepsSameEngine_after hi e
  rw [after_eq_of_exec h₁, after_eq_of_exec h₂] at hkeeps
  refine ⟨hkeeps, fun hfin ha => ?_⟩
  obtain ⟨u, v, hu, hv, hdigest⟩ := digest_of_sameAbsorbed hfin e.absorbed e.len ha (e.absorbing ha)
  rw [exec_issued] at hu hv
  cases h₁.symm.trans hu
  cases h₂.symm.trans hv
  exact hdigest

/-! ## DIGEST and DVALID -/

theorem exec_finalizeReset_absorbing {s : State} (ha : Absorbing s) :
    exec .finalizeReset s = .next (finalizeResetEffect s) :=
  congrArg Host.Outcome.next (acceptInAbsorb_absorbing ha)

/-- Either finalize clears DVALID when it is accepted (spec/41_finalize.md R159). -/
theorem exec_finalizing_dvalid {i : Instr} {s : State} (hi : i = .finalize ∨ i = .finalizeReset) (ha : Absorbing s) :
    ∃ t, exec i s = .next t ∧ t.dvalid = false := by
  obtain rfl | rfl := hi
  · exact ⟨finalizeEffect s, exec_finalize_absorbing ha, rfl⟩
  · exact ⟨finalizeResetEffect s, exec_finalizeReset_absorbing ha, rfl⟩

theorem effect_digest {i : Instr} {s t : State} (e : Effect i s t) (h : t.digest ≠ s.digest ∨ t.dvalid ≠ s.dvalid) :
    (i = .finalize ∨ i = .finalizeReset) ∧ Absorbing s := by
  cases e with
  | finalize _ ha => exact ⟨.inl rfl, ha⟩
  | finalizeReset _ ha => exact ⟨.inr rfl, ha⟩
  | _ => exact absurd h (by simp)

theorem engineStep_digest (s : State) : (engineStep s).digest = s.digest := by
  rcases engineStep_cases s with ⟨-, e⟩ | ⟨-, e⟩ <;> rw [e]

/-- DVALID after a move of the engine: 1 where the move completed a finalize, else unchanged (spec/41_finalize.md R161). -/
theorem engineStep_dvalid (s : State) :
    ((engineStep s).inflight = .none ∧
      (engineStep s).dvalid = if s.inflight = .fin ∨ s.inflight = .finr then true else s.dvalid) ∨
    ((engineStep s).inflight = s.inflight ∧ (engineStep s).dvalid = s.dvalid) := by
  rcases engineStep_cases s with ⟨-, e⟩ | ⟨-, e⟩ <;> rw [e]
  exacts [.inl ⟨rfl, rfl⟩, .inr ⟨rfl, rfl⟩]

theorem engineStep_dvalid_of_completed {s : State} (hk : s.inflight = .fin ∨ s.inflight = .finr)
    (hdone : (engineStep s).inflight = .none) : (engineStep s).dvalid = true := by
  rcases engineStep_dvalid s with ⟨-, hd⟩ | ⟨hi, -⟩
  · rw [hd, if_pos hk]
  · rw [← hi, hdone] at hk
    exact absurd hk (by decide)

theorem completed_of_engineStep_dvalid {s : State} (h : (engineStep s).dvalid ≠ s.dvalid) :
    (s.inflight = .fin ∨ s.inflight = .finr) ∧ (engineStep s).inflight = .none := by
  rcases engineStep_dvalid s with ⟨hi, hd⟩ | ⟨-, hd⟩
  · refine ⟨?_, hi⟩
    by_contra hk
    exact h (by rw [hd, if_neg hk])
  · exact absurd hd h

/-- Settles O29: an instruction by the shapes of `Effect`, the engine by whether its move is the completion. -/
theorem digestAndItsValidity : Obligations.DigestAndItsValidity := by
  refine ⟨fun i s hi ha => ?_, fun i s t ht h => effect_digest (effect_of_exec ht) h,
    fun s => ⟨engineStep_digest s, engineStep_dvalid_of_completed, completed_of_engineStep_dvalid⟩, fun s => rfl⟩
  obtain ⟨t, ht, hd⟩ := exec_finalizing_dvalid hi ha
  exact ⟨t, (exec_issued i s).symm.trans ht, hd⟩

/-! ## LEN and BUFLEN -/

/-- In the ABSORB phase BUFLEN counts the bytes of LEN beyond whole blocks (spec/41_finalize.md R164). -/
def FillAgrees (s : State) : Prop := s.final = false → s.len.toNat % 64 = s.buflen.toNat

theorem absorbByte_buflen (s : State) (b : Byte) : (absorbByte s b).buflen = s.buflen + 1 := by
  by_cases hfull : s.buflen.toNat + 1 = 64
  · rw [absorbByte_full s b hfull, launch_buflen]
    bv_omega
  · rw [absorbByte_open s b (by have := s.buflen.isLt; omega)]

/-- BUFLEN counts the bytes absorbed mod 64: a full block leaves it 0 (spec/40_update_reset.md R125). -/
theorem absorb_buflen (s : State) (bs : List Byte) :
    (absorb s bs).buflen.toNat = (s.buflen.toNat + bs.length) % 64 := by
  induction bs generalizing s with
  | nil => exact (Nat.mod_eq_of_lt s.buflen.isLt).symm
  | cons b bs ih =>
    have hone : (s.buflen + 1).toNat = (s.buflen.toNat + 1) % 64 := BitVec.toNat_add _ _
    rw [absorb_cons, ih, absorbByte_buflen, hone, List.length_cons]
    omega

theorem fillAgrees_updateEffect {nb : Nat} {s : State} (hnb : nb ≤ 4) (h : FillAgrees s) :
    FillAgrees (updateEffect nb s) := by
  intro hf
  have hs := h ((updateEffect_final nb s).symm.trans hf)
  have hfill : (updateEffect nb s).buflen.toNat = (s.buflen.toNat + nb) % 64 := by
    rw [updateEffect, absorb_buflen, beatBytes_length, Nat.min_eq_left hnb]
  rw [hfill, updateEffect_len, BitVec.toNat_add, BitVec.toNat_ofNat]
  omega

/-- The two RESETs leave LEN and BUFLEN at 0, FINALIZE leaves the phase, and UPDATE counts in both. -/
theorem fillAgrees_effect {i : Instr} {s t : State} (e : Effect i s t) (hw : writesContext i = false)
    (h : FillAgrees s) : FillAgrees t := by
  cases e with
  | skip | clear | value | draw | error | data => exact h
  | hash _ _ _ hc | length _ _ _ hc => exact absurd (hw.symm.trans hc) Bool.false_ne_true
  | level | bytes => exact absurd hw.symm Bool.false_ne_true
  | reset | finalizeReset => exact fun _ => rfl
  | finalize => exact fun hf => absurd hf.symm Bool.false_ne_true
  | update _ nb _ hu => exact fillAgrees_updateEffect (isUpdate_le hu) h

theorem fillAgrees_engineStep {s : State} (h : FillAgrees s) : FillAgrees (engineStep s) := by
  rcases engineStep_cases s with ⟨-, e⟩ | ⟨-, e⟩ <;> rw [e] <;> exact h

/-- Settles O32: an instruction by the shapes of `Effect`; the engine touches neither LEN nor BUFLEN, and reset leaves 0 in both. -/
theorem lengthAndFillAgree : Obligations.LengthAndFillAgree := by
  refine ⟨fun _ => rfl, fun i s t hi ht h => ?_, fun s h => fillAgrees_engineStep h, fun s _ => rfl⟩
  have hw : writesContext (issued i) = false :=
    Bool.eq_false_iff.mpr fun hc => absurd (hi.symm.trans (writesContext_of_issued hc)) Bool.false_ne_true
  exact fillAgrees_effect (effect_of_exec ht) hw h

end Sys2Proof.Machine
end

section
/-! The padding blocks byte by byte, and the two finalize commands where they are accepted (spec/41_finalize.md R151 to R157, R163). -/

namespace Sys2Proof.Machine

/-! ## Padding blocks -/

/-- The marked buffer with zeros up to `hi`: steps 1 and 2 of the padding (spec/41_finalize.md R152). -/
theorem byteAt_markedZeros (m : Buffer) (L hi : Nat) {j : Nat} (hj : j < 64) :
    byteAt (zeroBytes (putByte m L 0x80) (L + 1) hi) j =
      if j < L then byteAt m j else if j = L then 0x80 else if j < hi then 0x00 else byteAt m j := by
  rw [byteAt_zeroBytes _ _ _ _ hj, byteAt_putByte _ _ _ _ hj]
  rcases Nat.lt_trichotomy j L with h | h | h
  · rw [if_neg (by omega), if_neg (by omega), if_pos h]
  · rw [if_neg (by omega), if_pos h, if_neg (by omega), if_pos h]
  · simp [Nat.succ_le_of_lt h, Nat.ne_of_gt h, Nat.not_lt_of_gt h]

/-- Byte `j` of the length field is byte `j - 56` of `be64` of the bit length (spec/41_finalize.md R151). -/
theorem be64_bitLength_getD (len : BitVec 64) {j : Nat} (h56 : 56 ≤ j) (hj : j < 64) :
    (be64 (bitLength len)).getD (j - 56) 0 = lengthByte len j := by
  interval_cases j <;> rfl

theorem byteAt_putLength (len : BitVec 64) (m : Buffer) {j : Nat} (hj : j < 64) :
    byteAt (putLength len m) j = if j < 56 then byteAt m j else lengthByte len j := by
  rw [putLength, byteAt_putBytes _ _ _ _ hj, be64_length]
  by_cases h56 : j < 56
  · rw [if_neg (by omega), if_pos h56]
  · rw [if_pos (by omega), if_neg h56, be64_bitLength_getD len (by omega) hj]

/-- The padding block when BUFLEN is at most 55. -/
def onePadBlock (len : BitVec 64) (L : Nat) (m : Buffer) : Buffer :=
  putLength len (zeroBytes (putByte m L 0x80) (L + 1) 56)

/-- The first padding block when BUFLEN is 56 or more. -/
def firstPadBlock (L : Nat) (m : Buffer) : Buffer := zeroBytes (putByte m L 0x80) (L + 1) 64

/-- The second one, made in the buffer that still holds the first. -/
def secondPadBlock (len : BitVec 64) (m : Buffer) : Buffer := putLength len (zeroBytes m 0 56)

theorem padBlocks_le (len : BitVec 64) {L : Nat} (m : Buffer) (hL : L ≤ 55) :
    padBlocks len L m = [onePadBlock len L m] := if_pos hL

theorem padBlocks_gt (len : BitVec 64) {L : Nat} (m : Buffer) (hL : 56 ≤ L) :
    padBlocks len L m = [firstPadBlock L m, secondPadBlock len (firstPadBlock L m)] := if_neg (by omega)

theorem byteAt_onePadBlock (len : BitVec 64) {L : Nat} (m : Buffer) (hL : L ≤ 55) {j : Nat} (hj : j < 64) :
    byteAt (onePadBlock len L m) j =
      if j < L then byteAt m j else if j = L then 0x80 else if j < 56 then 0x00 else lengthByte len j := by
  rw [onePadBlock, byteAt_putLength _ _ hj, byteAt_markedZeros _ _ _ hj]
  by_cases h56 : j < 56
  · simp only [h56, if_true]
  · rw [if_neg h56, if_neg (by omega), if_neg (by omega), if_neg h56]

theorem byteAt_firstPadBlock (L : Nat) (m : Buffer) {j : Nat} (hj : j < 64) :
    byteAt (firstPadBlock L m) j = if j < L then byteAt m j else if j = L then 0x80 else 0x00 := by
  rw [firstPadBlock, byteAt_markedZeros _ _ _ hj, if_pos hj]

theorem byteAt_secondPadBlock (len : BitVec 64) (m : Buffer) {j : Nat} (hj : j < 64) :
    byteAt (secondPadBlock len m) j = if j < 56 then 0x00 else lengthByte len j := by
  rw [secondPadBlock, byteAt_putLength _ _ hj, byteAt_zeroBytes _ _ _ _ hj]
  by_cases h56 : j < 56 <;> simp [h56]

/-- Nothing of the first block is left in the second. -/
theorem secondPadBlock_congr (len : BitVec 64) (m m' : Buffer) : secondPadBlock len m = secondPadBlock len m' :=
  buffer_ext fun j hj => by rw [byteAt_secondPadBlock len m hj, byteAt_secondPadBlock len m' hj]

/-! ## The commands -/

/-- What an accepted FINALIZE leaves, field by field (spec/41_finalize.md R155, R156). -/
theorem finalizeEffect_eq (s : State) :
    finalizeEffect s = { s with
      h := compressAll s.h s.padBlocks
      buflen := 0
      digest := compressAll s.h s.padBlocks
      final := true
      dvalid := false
      inflight := .fin
      buf := s.padBlocks.getLastD s.buf
      unit := s.unit.start Config.form s.h s.padBlocks
      engineWait := Config.hostAccesses s.draws
      draws := s.draws + 1 } := rfl

/-- Settles O39: the one padding block is `onePadBlock`. -/
theorem finalizeOfOnePaddingBlock : Obligations.FinalizeOfOnePaddingBlock := by
  intro s ha hL
  have hpad : s.padBlocks = [onePadBlock s.len s.buflen.toNat s.buf] := padBlocks_le s.len s.buf hL
  rw [exec_finalize_absorbing ha, finalizeEffect_eq, hpad]
  exact ⟨_, rfl, fun j hj => byteAt_onePadBlock s.len s.buf hL hj, rfl⟩

/-- Settles O40: the two padding blocks are `firstPadBlock` and `secondPadBlock`, and the second is left in the buffer. -/
theorem finalizeOfTwoPaddingBlocks : Obligations.FinalizeOfTwoPaddingBlocks := by
  intro s ha hL
  have hpad : s.padBlocks = _ := padBlocks_gt s.len s.buf hL
  rw [exec_finalize_absorbing ha, finalizeEffect_eq, hpad]
  exact ⟨_, _, rfl, fun j hj => byteAt_firstPadBlock _ s.buf hj,
    fun j hj => byteAt_secondPadBlock s.len _ hj, rfl⟩

/-- Settles O41: both commands pad and latch alike, and FINALIZE_RESET then writes the initial context. -/
theorem Finalize.finalizeResetEffect : Obligations.FinalizeResetEffect :=
  fun s ha => ⟨Machine.finalizeResetEffect s, finalizeEffect s, exec_finalizeReset_absorbing ha,
    exec_finalize_absorbing ha, rfl⟩

/-! ## The length field at its wraparound -/

/-- LEN reaches the padding only through the bit length, and an empty buffer's stale bytes do not reach it
(spec/41_finalize.md R162, R163). -/
theorem padBlocks_empty_of_bitLength {len len' : BitVec 64} (m m' : Buffer) (h : bitLength len = bitLength len') :
    padBlocks len 0 m = padBlocks len' 0 m' := by
  have hlen : padBlocks len 0 m = padBlocks len' 0 m := by
    simp only [padBlocks, putLength, h]
  exact hlen.trans (padBlocks_congr (fun j hj => absurd hj (Nat.not_lt_zero j)) len')

/-- The digest of the empty message (spec/41_finalize.md R163, spec/70_reset_and_hazards.md R284). -/
theorem compressAll_padBlocks_empty :
    compressAll iv (padBlocks 0 0 State.reset.buf) =
      ⟨0xDA39A3EE, 0x5E6B4B0D, 0x3255BFEF, 0x95601890, 0xAFD80709⟩ := by decide +kernel

/-- The length field that FINALIZE leaves in the buffer where it pads an empty one. -/
theorem finalizeEffect_lengthField {s : State} (hb : s.buflen = 0) {j : Nat} (h56 : 56 ≤ j) (hj : j < 64) :
    byteAt (finalizeEffect s).buf j = lengthByte s.len j := by
  have hL : s.buflen.toNat = 0 := by rw [hb]; rfl
  have hpad : s.padBlocks = [onePadBlock s.len s.buflen.toNat s.buf] := padBlocks_le s.len s.buf (by omega)
  rw [finalizeEffect_eq, hpad]
  refine (byteAt_onePadBlock s.len s.buf (by omega) hj).trans ?_
  rw [if_neg (by omega), if_neg (by omega), if_neg (by omega)]

theorem lengthByte_of_bitLength {len : BitVec 64} (h : bitLength len = 0) (j : Nat) : lengthByte len j = 0 := by
  change (bitLength len).extractLsb' _ 8 = 0
  rw [h]
  exact BitVec.extractLsb'_zero

/-- The lengths whose bit length is 0 give the empty message's digest. -/
theorem finalizeEffect_digest_of_bitLength {s : State} (hb : s.buflen = 0) (hh : s.h = iv) (hlen : bitLength s.len = 0) :
    (finalizeEffect s).digest = ⟨0xDA39A3EE, 0x5E6B4B0D, 0x3255BFEF, 0x95601890, 0xAFD80709⟩ := by
  have hL : s.buflen.toNat = 0 := by rw [hb]; rfl
  have hpad : s.padBlocks = padBlocks 0 0 State.reset.buf := by
    rw [State.padBlocks, hL]
    exact padBlocks_empty_of_bitLength _ _ (hlen.trans (by decide))
  rw [← compressAll_padBlocks_empty, ← hh, ← hpad]
  rfl

/-- Settles O42: at 0 and at 2^61 the bit length is 0; at 2^64 - 1 each byte of the length field is computed. -/
theorem lengthWraparound : Obligations.LengthWraparound := by
  intro s ha hb
  constructor
  · intro hlen
    have hbits : bitLength s.len = 0 := by obtain h | h := hlen <;> rw [h] <;> decide
    refine ⟨_, exec_finalize_absorbing ha, fun j h56 hj => ?_, fun hh => finalizeEffect_digest_of_bitLength hb hh hbits⟩
    exact (finalizeEffect_lengthField hb h56 (by omega)).trans (lengthByte_of_bitLength hbits j)
  · intro hlen
    refine ⟨_, exec_finalize_absorbing ha, fun j h56 hj => ?_, ?_⟩ <;>
      rw [finalizeEffect_lengthField hb (by omega) (by omega), hlen]
    · interval_cases j <;> rfl
    · rfl

end Sys2Proof.Machine
end

section
/-! The source's procedure on a whole message against the core's block by block (spec/41_finalize.md R150): absorbing a message compresses
its whole blocks and keeps the rest, and the padded rest is cut into the core's padding blocks. -/

namespace Sys2Proof.Machine

/-! ## Cutting bytes into blocks -/

theorem putBytes_append (m : Buffer) (i : Nat) (bs cs : List Byte) :
    putBytes m i (bs ++ cs) = putBytes (putBytes m i bs) (i + bs.length) cs := by
  induction bs generalizing m i with
  | nil => rfl
  | cons b bs ih =>
    rw [List.cons_append, putBytes, putBytes, ih, List.length_cons, Nat.add_assoc, Nat.add_comm 1]

/-- Sixty-four bytes fill the buffer, whatever it held. -/
theorem putBytes_take_eq_blockOf (m : Buffer) {bs : List Byte} (h : 64 ≤ bs.length) :
    putBytes m 0 (bs.take 64) = blockOf bs := by
  refine buffer_ext fun j hj => ?_
  have hin : 0 ≤ j ∧ j < 0 + (bs.take 64).length := by rw [List.length_take]; omega
  rw [blockOf, byteAt_putBytes _ _ _ _ hj, byteAt_putBytes _ _ _ _ hj, if_pos hin, if_pos hin]

theorem blockOf_of_length_le {bs : List Byte} (h : bs.length ≤ 64) :
    blockOf bs = putBytes (Vector.replicate 64 0) 0 bs := by
  rw [blockOf, List.take_of_length_le h]

theorem blockOf_append_of_length_le {xs ys : List Byte} (h : (xs ++ ys).length ≤ 64) :
    blockOf (xs ++ ys) = putBytes (blockOf xs) xs.length ys := by
  have hxs : xs.length ≤ 64 := by rw [List.length_append] at h; omega
  rw [blockOf_of_length_le h, blockOf_of_length_le hxs, putBytes_append, Nat.zero_add]

theorem blockOf_append {xs : List Byte} (ys : List Byte) (h : 64 ≤ xs.length) : blockOf (xs ++ ys) = blockOf xs := by
  rw [blockOf, List.take_append_of_le_length h, blockOf]

/-- The blocks of bytes whose first `n` blocks are whole before the last part begins. -/
theorem blocksOf_append (n k : Nat) {xs : List Byte} (ys : List Byte) (h : 64 * n ≤ xs.length) :
    blocksOf (n + k) (xs ++ ys) = blocksOf n xs ++ blocksOf k (xs.drop (64 * n) ++ ys) := by
  induction n generalizing xs with
  | zero => simp [blocksOf]
  | succ n ih =>
    have hrest : 64 * n ≤ (xs.drop 64).length := by rw [List.length_drop]; omega
    rw [Nat.succ_add, blocksOf, blocksOf, blockOf_append ys (by omega), List.drop_append_of_le_length (by omega),
      ih hrest, List.drop_drop, List.cons_append, Nat.mul_succ, Nat.add_comm 64]

/-! ## Absorbing a message -/

/-- Bytes that come into an empty buffer leave H at the compressions of their whole blocks, and the rest in the buffer. -/
theorem absorb_blocks (n : Nat) (s : State) (bs : List Byte) (hs : s.buflen = 0) (hn : bs.length / 64 = n) :
    SameAbsorbed (absorb s bs) { s with
      h := compressAll s.h (blocksOf n bs)
      buf := blockOf (bs.drop (64 * n))
      buflen := BitVec.ofNat 6 bs.length } := by
  induction n generalizing s bs with
  | zero =>
    have hlen : bs.length < 64 := by omega
    rw [absorb_empty bs s hs hlen]
    refine ⟨rfl, rfl, fun j hj => ?_⟩
    replace hj : j < bs.length := hj.trans_le (Nat.mod_le _ _)
    have hj64 : j < 64 := hj.trans hlen
    have hin : 0 ≤ j ∧ j < 0 + bs.length := by omega
    change byteAt (putBytes _ _ _) j = byteAt (blockOf _) j
    rw [Nat.mul_zero, List.drop_zero, blockOf_of_length_le hlen.le, byteAt_putBytes _ _ _ _ hj64,
      byteAt_putBytes _ _ _ _ hj64, if_pos hin, if_pos hin]
  | succ n ih =>
    have h0 : s.buflen.toNat = 0 := by rw [hs]; rfl
    have htake : (bs.take 64).length = 64 := by rw [List.length_take]; omega
    have hsplit : absorb s bs = absorb (absorb s (bs.take 64)) (bs.drop 64) := by
      rw [← absorb_append, List.take_append_drop]
    rw [hsplit, absorb_full _ s (by omega), h0, putBytes_take_eq_blockOf s.buf (by omega)]
    refine (ih _ (bs.drop 64) ?_ ?_).trans ⟨?_, ?_, fun j _ => ?_⟩
    · rfl
    · rw [List.length_drop]; omega
    · simp only [launch_h, blocksOf, compressAll, List.foldl_cons]
    · apply BitVec.eq_of_toNat_eq
      simp only [BitVec.toNat_ofNat, List.length_drop]
      omega
    · simp only [List.drop_drop, Nat.mul_succ, Nat.add_comm 64]

/-! ## The padding of a message -/

/-- What the source appends to a message of `n` bytes (spec/41_finalize.md R150, steps 1 to 3). -/
def padTail (n : Nat) : List Byte :=
  0x80 :: (List.replicate ((119 - n % 64) % 64) 0 ++ be64 (bitLength (BitVec.ofNat 64 n)))

theorem bitLength_ofNat (n : Nat) : bitLength (BitVec.ofNat 64 n) = BitVec.ofNat 64 (8 * n) := by
  apply BitVec.eq_of_toNat_eq
  rw [bitLength, BitVec.toNat_shiftLeft, BitVec.toNat_ofNat, BitVec.toNat_ofNat, Nat.shiftLeft_eq]
  omega

theorem padMessage_eq (m : List Byte) : padMessage m = m ++ padTail m.length := by
  simp [padMessage, padTail, bitLength_ofNat]

theorem length_padTail (n : Nat) : (padTail n).length = (119 - n % 64) % 64 + 9 := by
  simp [padTail]

theorem length_padMessage_div (m : List Byte) :
    (padMessage m).length / 64 = m.length / 64 + if m.length % 64 ≤ 55 then 1 else 2 := by
  rw [padMessage_eq, List.length_append, length_padTail]
  split <;> omega

section
variable {n : Nat} {rest : List Byte} (hrest : rest.length = n % 64)
include hrest

/-- A rest of up to 55 bytes and its padding are the core's one padding block. -/
theorem blockOf_padTail (h : n % 64 ≤ 55) :
    blockOf (rest ++ padTail n) = onePadBlock (BitVec.ofNat 64 n) (n % 64) (blockOf rest) := by
  have hz : (119 - n % 64) % 64 = 56 - (n % 64 + 1) := by omega
  have hend : n % 64 + 1 + (56 - (n % 64 + 1)) = 56 := by omega
  have hlen : (rest ++ padTail n).length ≤ 64 := by rw [List.length_append, length_padTail, hrest]; omega
  rw [blockOf_append_of_length_le hlen, hrest, padTail, putBytes, putBytes_append,
    List.length_replicate, hz, hend]
  rfl

/-- A longer rest and its padding are the core's two. -/
theorem blocksOf_padTail (h : 56 ≤ n % 64) :
    blocksOf 2 (rest ++ padTail n) =
      [firstPadBlock (n % 64) (blockOf rest),
        secondPadBlock (BitVec.ofNat 64 n) (firstPadBlock (n % 64) (blockOf rest))] := by
  have hz : (119 - n % 64) % 64 = (64 - (n % 64 + 1)) + 56 := by omega
  have hcut : rest ++ padTail n = (rest ++ 0x80 :: List.replicate (64 - (n % 64 + 1)) 0) ++
      (List.replicate 56 0 ++ be64 (bitLength (BitVec.ofNat 64 n))) := by
    simp only [padTail, hz, List.replicate_add, List.append_assoc, List.cons_append]
  have hlen : (rest ++ 0x80 :: List.replicate (64 - (n % 64 + 1)) (0 : Byte)).length = 64 := by
    rw [List.length_append, List.length_cons, List.length_replicate, hrest]; omega
  have hfirst : blockOf (rest ++ 0x80 :: List.replicate (64 - (n % 64 + 1)) 0) =
      firstPadBlock (n % 64) (blockOf rest) := by
    rw [blockOf_append_of_length_le hlen.le, hrest]
    rfl
  have hsecond : blockOf (List.replicate 56 0 ++ be64 (bitLength (BitVec.ofNat 64 n))) =
      secondPadBlock (BitVec.ofNat 64 n) (Vector.replicate 64 0) := by
    rw [blockOf_of_length_le (by simp), putBytes_append]
    rfl
  rw [hcut, blocksOf_append 1 1 _ (by omega), List.drop_of_length_le (by omega), List.nil_append]
  simp only [blocksOf, hfirst, hsecond, List.singleton_append]
  rw [secondPadBlock_congr]

/-- Either way the padded rest is cut into the core's padding blocks. -/
theorem blocksOf_rest_padTail :
    blocksOf (if n % 64 ≤ 55 then 1 else 2) (rest ++ padTail n) =
      padBlocks (BitVec.ofNat 64 n) (n % 64) (blockOf rest) := by
  by_cases h : n % 64 ≤ 55
  · rw [if_pos h, padBlocks_le _ _ h, ← blockOf_padTail hrest h]
    rfl
  · rw [if_neg h, padBlocks_gt _ _ (by omega), blocksOf_padTail hrest (by omega)]

end

theorem compressAll_append (H : Hash) (Bs Cs : List Buffer) :
    compressAll H (Bs ++ Cs) = compressAll (compressAll H Bs) Cs := List.foldl_append

/-- The source's digest as the core computes it: the whole blocks of the message, then the padding blocks of its rest. -/
theorem sha1_eq (m : List Byte) :
    sha1 m = compressAll (compressAll iv (blocksOf (m.length / 64) m))
      (padBlocks (BitVec.ofNat 64 m.length) (m.length % 64) (blockOf (m.drop (64 * (m.length / 64))))) := by
  have hrest : (m.drop (64 * (m.length / 64))).length = m.length % 64 := by rw [List.length_drop]; omega
  rw [sha1, length_padMessage_div, padMessage_eq, blocksOf_append _ _ _ (Nat.mul_div_le _ _), compressAll_append,
    blocksOf_rest_padTail hrest]

/-- A core whose LEN, H and buffer come from a message absorbed from the initial state is ready to give its digest. -/
theorem compressAll_padBlocks_of_absorbed {s t : State} {m : List Byte} (hh : s.h = iv) (hb : s.buflen = 0)
    (e : SameAbsorbed t (absorb s m)) (hlen : t.len = BitVec.ofNat 64 m.length) :
    compressAll t.h t.padBlocks = sha1 m := by
  have f := e.trans (absorb_blocks (m.length / 64) s m hb rfl)
  have hfill : t.buflen.toNat = m.length % 64 := by rw [f.buflen, BitVec.toNat_ofNat]
  rw [sha1_eq, f.h, State.padBlocks, padBlocks_congr f.message, hlen, hfill, hh]

/-- Settles O58: the beats absorb the message, and either finalize latches the compression of the padding blocks. -/
theorem digestOfEveryMessage : Obligations.DigestOfEveryMessage := by
  intro s beats ha hh hl hb hfit
  obtain ⟨habs, hlen, e⟩ := feed_flatten ha hfit
  rw [hl] at hlen
  replace hlen := hlen.trans (BitVec.zero_add _)
  have hsha := compressAll_padBlocks_of_absorbed hh hb e hlen
  obtain ⟨t, ht, hdt⟩ := exec_finalizing (.inl rfl) habs
  obtain ⟨u, hu, hdu⟩ := exec_finalizing (.inr rfl) habs
  exact ⟨t, u, ht, hdt.trans hsha, hu, hdu.trans hsha⟩

end Sys2Proof.Machine
end

section
/-! The statements on the bus reads (spec/42_context.md R181 to R196): what each register returns where R196 does not
leave it open. -/

namespace Sys2Proof.Machine

/-- Settles O16: a read is open or specified, and the free value is any. -/
theorem readsInFlightAreFreshDraws : Obligations.ReadsInFlightAreFreshDraws :=
  fun i s hi => ⟨exec_openRead, fun h => ⟨registerValue i s, exec_specifiedRead hi h⟩⟩

/-- Settles O11: INFO and CMD look at nothing, and a reserved index reads 0. -/
theorem constantReads : Obligations.ConstantReads :=
  fun s => ⟨rfl, rfl, exec_readsReserved (.inl rfl) s,
    fun k => exec_readsReserved (.inr (.inl ⟨k, rfl⟩)) s,
    fun k => exec_readsReserved (.inr (.inr (.inl ⟨k, rfl⟩))) s,
    fun k => exec_readsReserved (.inr (.inr (.inr (.inl ⟨k, rfl⟩)))) s,
    fun k => exec_readsReserved (.inr (.inr (.inr (.inr ⟨k, rfl⟩)))) s⟩

/-! ## The fields of STATUS -/

theorem status_bit1 (s : State) : s.status.getLsbD 1 = s.dvalid := by
  simp only [State.status, BitVec.getLsbD_append]
  cases s.dvalid <;> rfl

theorem status_bit2 (s : State) : s.status.getLsbD 2 = s.final := by
  simp only [State.status, BitVec.getLsbD_append]
  cases s.final <;> rfl

theorem status_bit3 (s : State) : s.status.getLsbD 3 = s.err := by
  simp only [State.status, BitVec.getLsbD_append]
  cases s.err <;> rfl

theorem status_errcode (s : State) : s.status.extractLsb' 4 4 = s.errcode := by
  unfold State.status
  iterate 4 rw [BitVec.extractLsb'_append_eq_of_le (by decide)]
  exact BitVec.extractLsb'_append_eq_right

theorem status_upper (s : State) : s.status.extractLsb' 8 24 = 0 := by
  unfold State.status
  iterate 5 rw [BitVec.extractLsb'_append_eq_of_le (by decide)]
  rfl

/-- Settles O12: STATUS is its fields side by side. -/
theorem dataAndStatusReads : Obligations.DataAndStatusReads := by
  refine fun s => ⟨rfl, s.status, rfl, ?_, status_bit1 s, status_bit2 s, status_bit3 s, status_errcode s,
    status_upper s⟩
  rw [status_bit0]
  exact decide_eq_true_iff

/-! ## DIGEST and the context registers -/

theorem readDigest_specified {s : State} (hs : s.inflight = .none ∨ s.inflight = .upd) (v : Word) :
    readDigest v s = returnWord v s := by
  obtain hk | hk := hs <;> rw [readDigest, hk]

theorem readContext_idle {s : State} (hs : s.inflight = .none) (v : Word) : readContext v s = returnWord v s :=
  if_pos hs

/-- Settles O13: without a finalize in flight a digest read returns its word. -/
theorem digestReads : Obligations.DigestReads := by
  intro s hs
  have hread (v : Word) := congrArg (Host.Outcome.next : State → Result) (readDigest_specified hs v)
  exact ⟨hread _, hread _, hread _, hread _, hread _⟩

theorem buflenWord_eq (n : BitVec 6) : buflenWord n = n.setWidth 32 :=
  (BitVec.setWidth_eq_append (by decide)).symm

/-- Settles O14: with nothing in flight a context read returns its word. -/
theorem contextReads : Obligations.ContextReads := by
  intro s hs
  have hread (v : Word) := congrArg (Host.Outcome.next : State → Result) (readContext_idle hs v)
  rw [← buflenWord_eq]
  exact ⟨hread _, hread _, hread _, hread _, hread _, hread _, hread _, hread _⟩

/-- Settles O15: the word read is made of the four bytes, lane by lane. -/
theorem bufferWordReads : Obligations.BufferWordReads :=
  fun s n hs => ⟨bufWord s.buf n, congrArg Host.Outcome.next (readContext_idle hs _),
    wordBe_lane0 .., wordBe_lane1 .., wordBe_lane2 .., wordBe_lane3 ..⟩

end Sys2Proof.Machine
end

section
/-! The statements on the bus writes (spec/42_context.md R183 to R197). All context writes go through one check of
INFLIGHT; beyond it each lemma says which part of its register the value takes. -/

namespace Sys2Proof.Machine

/-- Settles O10: a write to CMD and the command it issues run alike. -/
theorem cmdWriteRunsTheCommand : Obligations.CmdWriteRunsTheCommand :=
  fun v s => ⟨after (.wrCmd v) s, exec_after _ s, (exec_issued (.wrCmd v) s).trans (exec_after _ s)⟩

/-- Settles O18: the write of DATA has no check. -/
theorem dataWrite : Obligations.DataWrite := fun _ _ => rfl

/-- Settles O23: every such write raises BAD_ADDR, whose code is 5. -/
theorem badAddressWrites : Obligations.BadAddressWrites :=
  fun _ s hi => exec_writesBadAddress hi s

theorem writeContext_idle {s : State} (hs : s.inflight = .none) (f : State → State) : writeContext f s = f s :=
  if_pos hs

theorem writeContext_busy {s : State} (hs : s.inflight ≠ .none) (f : State → State) :
    writeContext f s = raise .busy s := if_neg hs

section
variable {s : State} (hs : s.inflight = .none) (v : Word)
include hs

theorem exec_wrH0_idle : exec (.wrH0 v) s = .next { s with h := { s.h with h0 := v } } :=
  congrArg Host.Outcome.next (writeContext_idle hs _)
theorem exec_wrH1_idle : exec (.wrH1 v) s = .next { s with h := { s.h with h1 := v } } :=
  congrArg Host.Outcome.next (writeContext_idle hs _)
theorem exec_wrH2_idle : exec (.wrH2 v) s = .next { s with h := { s.h with h2 := v } } :=
  congrArg Host.Outcome.next (writeContext_idle hs _)
theorem exec_wrH3_idle : exec (.wrH3 v) s = .next { s with h := { s.h with h3 := v } } :=
  congrArg Host.Outcome.next (writeContext_idle hs _)
theorem exec_wrH4_idle : exec (.wrH4 v) s = .next { s with h := { s.h with h4 := v } } :=
  congrArg Host.Outcome.next (writeContext_idle hs _)
theorem exec_wrLenLo_idle : exec (.wrLenLo v) s = .next { s with len := withLenLo s.len v } :=
  congrArg Host.Outcome.next (writeContext_idle hs _)
theorem exec_wrLenHi_idle : exec (.wrLenHi v) s = .next { s with len := withLenHi s.len v } :=
  congrArg Host.Outcome.next (writeContext_idle hs _)
theorem exec_wrBuf_idle (n : BitVec 4) : exec (.wrBuf n v) s = .next { s with buf := putBufWord s.buf n v } :=
  congrArg Host.Outcome.next (writeContext_idle hs _)

end

/-- Settles O19: each write of Hn sets its own word. -/
theorem hashWordWrites : Obligations.HashWordWrites := by
  refine fun s v => ⟨fun hs => ?_, fun hs i hi => ?_⟩
  · exact ⟨exec_wrH0_idle hs v, exec_wrH1_idle hs v, exec_wrH2_idle hs v, exec_wrH3_idle hs v, exec_wrH4_idle hs v⟩
  · fin_cases hi <;> exact congrArg Host.Outcome.next (writeContext_busy hs _)

/-! ## The halves of LEN -/

@[simp] theorem lenLo_withLenLo (len : BitVec 64) (v : Word) : lenLo (withLenLo len v) = v :=
  BitVec.extractLsb'_append_eq_right

@[simp] theorem lenHi_withLenLo (len : BitVec 64) (v : Word) : lenHi (withLenLo len v) = lenHi len :=
  BitVec.extractLsb'_append_eq_left

@[simp] theorem lenHi_withLenHi (len : BitVec 64) (v : Word) : lenHi (withLenHi len v) = v :=
  BitVec.extractLsb'_append_eq_left

@[simp] theorem lenLo_withLenHi (len : BitVec 64) (v : Word) : lenLo (withLenHi len v) = lenLo len :=
  BitVec.extractLsb'_append_eq_right

/-- Settles O20: LEN is its halves side by side, and a write replaces one. -/
theorem lengthWrites : Obligations.LengthWrites := by
  refine fun s v => ⟨fun hs => ⟨?_, ?_⟩, fun hs => ⟨?_, ?_⟩⟩
  · exact ⟨_, exec_wrLenLo_idle hs v, lenLo_withLenLo s.len v, lenHi_withLenLo s.len v⟩
  · exact ⟨_, exec_wrLenHi_idle hs v, lenHi_withLenHi s.len v, lenLo_withLenHi s.len v⟩
  · exact congrArg Host.Outcome.next (writeContext_busy hs _)
  · exact congrArg Host.Outcome.next (writeContext_busy hs _)

/-! ## BUFLEN -/

/-- The bits that must be 0 are those of 64 and above (spec/42_context.md R194). -/
theorem buflenUpper_eq_zero_iff (v : Word) : buflenUpper v = 0 ↔ v.toNat < 64 := by
  have hv := v.isLt
  have hfield : (buflenUpper v).toNat = v.toNat / 2 ^ 6 % 2 ^ 26 := by
    rw [buflenUpper, BitVec.extractLsb'_toNat, Nat.shiftRight_eq_div_pow]
  rw [← BitVec.toNat_inj, hfield]
  change _ = 0 ↔ _
  omega

theorem buflenLower_eq (v : Word) : buflenLower v = BitVec.ofNat 6 v.toNat := rfl

theorem exec_wrBuflen_large {v : Word} (hv : 64 ≤ v.toNat) (s : State) :
    exec (.wrBuflen v) s = .next (raise .badValue s) :=
  congrArg Host.Outcome.next (if_pos (mt (buflenUpper_eq_zero_iff v).mp (by omega)))

theorem exec_wrBuflen_small {v : Word} (hv : v.toNat < 64) (s : State) :
    exec (.wrBuflen v) s = .next (writeContext (fun s => { s with buflen := buflenLower v }) s) :=
  congrArg Host.Outcome.next (if_neg (not_not.mpr ((buflenUpper_eq_zero_iff v).mpr hv)))

/-- Settles O21: the value is checked first, and then BUSY. -/
theorem buflenWrite : Obligations.BuflenWrite := by
  refine fun s v => ⟨fun hv => exec_wrBuflen_large hv s, fun hv hs => ?_, fun hv hs => ?_⟩
  · rw [exec_wrBuflen_small hv, writeContext_busy hs]
  · rw [exec_wrBuflen_small hv, writeContext_idle hs, buflenLower_eq]

/-! ## The words of the buffer -/

theorem be32_getD {k : Nat} (v : Word) (hk : k < 4) : (be32 v).getD k 0 = lane v k :=
  beatBytes_getD v le_rfl hk

/-- Byte `j` of the buffer is lane `j % 4` of its word `j / 4` (spec/20_memory.md R68). -/
theorem byteAt_putBufWord (m : Buffer) (n : BitVec 4) (v : Word) {j : Nat} (hj : j < 64) :
    byteAt (putBufWord m n v) j = if j / 4 = n.toNat then lane v (j % 4) else byteAt m j := by
  rw [putBufWord, byteAt_putBytes _ _ _ _ hj, be32_length]
  by_cases hn : j / 4 = n.toNat
  · have hk : j - 4 * n.toNat = j % 4 := by omega
    rw [if_pos (by omega), if_pos hn, hk, be32_getD v (by omega)]
  · rw [if_neg (by omega), if_neg hn]

/-- Settles O22: the four bytes of a word of the buffer are the lanes of the value. -/
theorem bufferWordWrite : Obligations.BufferWordWrite := by
  refine fun s n v => ⟨fun hs => ?_, fun hs => congrArg Host.Outcome.next (writeContext_busy hs _)⟩
  exact ⟨putBufWord s.buf n v, exec_wrBuf_idle hs v n, fun j hj => byteAt_putBufWord s.buf n v hj⟩

end Sys2Proof.Machine
end

section
/-! SAVECTX and RESTORECTX (spec/30_encoding.md R101, spec/42_context.md R199): register by register, the write of the value
that the read of the same index returned copies that register from one core to the other. -/

namespace Sys2Proof.Machine

/-- The read of the register at an index of a core `s`, and the write of the value into a core `r`. -/
def copyRegister (s r : State) (idx : BitVec 6) : State :=
  after (decodeWrite idx (registerValue (decodeRead idx) s)) r

theorem not_readIsUnspec_idle {s : State} (hs : s.inflight = .none) (i : Instr) : ¬ readIsUnspec i s := by
  simp [readIsUnspec, hs]

theorem savedContext_idle {s : State} (hs : s.inflight = .none) :
    savedContext s = Asm.contextIndices.map fun idx => registerValue (decodeRead idx) s := by
  refine List.map_congr_left fun idx _ => ?_
  rw [after_eq_of_exec (exec_specifiedRead (isRead_decodeRead idx) (not_readIsUnspec_idle hs _))]
  rfl

theorem restoreContext_savedContext {s : State} (hs : s.inflight = .none) (r : State) :
    restoreContext r (savedContext s) = Asm.contextIndices.foldl (copyRegister s) r := by
  rw [restoreContext, savedContext_idle hs, ← List.map_prod_left_eq_zip, List.foldl_map]
  rfl

/-! ## H, LEN and BUFLEN -/

theorem withLenHi_withLenLo (len len' : BitVec 64) : withLenHi (withLenLo len (lenLo len')) (lenHi len') = len' := by
  rw [withLenHi, lenLo_withLenLo]
  exact BitVec.extractLsb'_append_extractLsb'

/-- BUFLEN reads as a value that may be written (spec/42_context.md R193, R194). -/
theorem exec_wrBuflen_buflenWord {r : State} (hr : r.inflight = .none) (n : BitVec 6) :
    exec (.wrBuflen (buflenWord n)) r = .next { r with buflen := n } := by
  have hupper : buflenUpper (buflenWord n) = 0 := BitVec.extractLsb'_append_eq_left
  have hlower : buflenLower (buflenWord n) = n := BitVec.extractLsb'_append_eq_right
  rw [exec_wrBuflen_small ((buflenUpper_eq_zero_iff _).mp hupper), writeContext_idle hr, hlower]

section
variable (s : State) {r : State} (hr : r.inflight = .none)
include hr

theorem copyRegister_h0 : copyRegister s r 16 = { r with h := { r.h with h0 := s.h.h0 } } :=
  after_eq_of_exec (exec_wrH0_idle hr _)
theorem copyRegister_h1 : copyRegister s r 17 = { r with h := { r.h with h1 := s.h.h1 } } :=
  after_eq_of_exec (exec_wrH1_idle hr _)
theorem copyRegister_h2 : copyRegister s r 18 = { r with h := { r.h with h2 := s.h.h2 } } :=
  after_eq_of_exec (exec_wrH2_idle hr _)
theorem copyRegister_h3 : copyRegister s r 19 = { r with h := { r.h with h3 := s.h.h3 } } :=
  after_eq_of_exec (exec_wrH3_idle hr _)
theorem copyRegister_h4 : copyRegister s r 20 = { r with h := { r.h with h4 := s.h.h4 } } :=
  after_eq_of_exec (exec_wrH4_idle hr _)
theorem copyRegister_lenLo : copyRegister s r 21 = { r with len := withLenLo r.len (lenLo s.len) } :=
  after_eq_of_exec (exec_wrLenLo_idle hr _)
theorem copyRegister_lenHi : copyRegister s r 22 = { r with len := withLenHi r.len (lenHi s.len) } :=
  after_eq_of_exec (exec_wrLenHi_idle hr _)
theorem copyRegister_buflen : copyRegister s r 23 = { r with buflen := s.buflen } :=
  after_eq_of_exec (exec_wrBuflen_buflenWord hr _)

theorem copyRegister_beforeBuffer : [16, 17, 18, 19, 20, 21, 22, 23].foldl (copyRegister s) r =
    { r with h := s.h, len := s.len, buflen := s.buflen } := by
  simp only [List.foldl_cons, List.foldl_nil, copyRegister_h0, copyRegister_h1, copyRegister_h2, copyRegister_h3,
    copyRegister_h4, copyRegister_lenLo, copyRegister_lenHi, copyRegister_buflen, withLenHi_withLenLo, hr]

theorem copyRegister_buf (n : BitVec 4) :
    copyRegister s r (0b10#2 ++ n) = { r with buf := putBufWord r.buf n (bufWord s.buf n) } := by
  rw [copyRegister, decodeWrite_eq, decodeRead_buf]
  exact after_eq_of_exec (exec_wrBuf_idle hr _ n)

end

/-! ## The buffer -/

theorem lane_bufWord (m : Buffer) (n : BitVec 4) {k : Nat} (hk : k < 4) :
    lane (bufWord m n) k = byteAt m (4 * n.toNat + k) := by
  obtain rfl | rfl | rfl | rfl : k = 0 ∨ k = 1 ∨ k = 2 ∨ k = 3 := by omega
  exacts [wordBe_lane0 .., wordBe_lane1 .., wordBe_lane2 .., wordBe_lane3 ..]

/-- One word of the buffer copied into another buffer. -/
def copyBufWord (src m : Buffer) (n : BitVec 4) : Buffer := putBufWord m n (bufWord src n)

theorem byteAt_copyBufWord (src m : Buffer) (n : BitVec 4) {j : Nat} (hj : j < 64) :
    byteAt (copyBufWord src m n) j = if j / 4 = n.toNat then byteAt src j else byteAt m j := by
  rw [copyBufWord, byteAt_putBufWord _ _ _ hj]
  refine if_ctx_congr Iff.rfl (fun hn => ?_) fun _ => rfl
  rw [lane_bufWord _ _ (by omega), ← hn, Nat.div_add_mod]

/-- A byte that agrees with the source, or whose word is still to be copied, agrees at the end. -/
theorem byteAt_copyBufWords (src : Buffer) {j : Nat} (hj : j < 64) (ns : List (BitVec 4)) (m : Buffer)
    (h : byteAt m j = byteAt src j ∨ ∃ n ∈ ns, j / 4 = n.toNat) :
    byteAt (ns.foldl (copyBufWord src) m) j = byteAt src j := by
  induction ns generalizing m with
  | nil => simpa using h
  | cons n ns ih =>
    refine ih _ ?_
    rw [byteAt_copyBufWord _ _ _ hj]
    split
    · exact .inl rfl
    · next hn => simpa [hn] using h

theorem copyRegister_bufs (s : State) (ns : List (BitVec 4)) {r : State} (hr : r.inflight = .none) :
    (ns.map (0b10#2 ++ ·)).foldl (copyRegister s) r = { r with buf := ns.foldl (copyBufWord s.buf) r.buf } := by
  induction ns generalizing r with
  | nil => rfl
  | cons n ns ih =>
    rw [List.map_cons, List.foldl_cons, copyRegister_buf s hr]
    exact ih hr

/-- The sixteen words of the buffer (spec/20_memory.md R68). -/
def bufIndices : List (BitVec 4) := (List.finRange 16).map .ofFin

theorem copyBufWords_all (src m : Buffer) : bufIndices.foldl (copyBufWord src) m = src := by
  refine buffer_ext fun j hj => byteAt_copyBufWords src hj bufIndices m (.inr ⟨.ofNat 4 (j / 4), ?_, ?_⟩)
  · simp [bufIndices]
  · rw [BitVec.toNat_ofNat]
    omega

theorem contextIndices_eq :
    Asm.contextIndices = [16, 17, 18, 19, 20, 21, 22, 23] ++ bufIndices.map (0b10#2 ++ ·) := by
  decide

theorem copyRegister_buffer (s : State) {r : State} (hr : r.inflight = .none) :
    (bufIndices.map (0b10#2 ++ ·)).foldl (copyRegister s) r = { r with buf := s.buf } := by
  rw [copyRegister_bufs s bufIndices hr, copyBufWords_all]

/-- Settles O59: H, LEN and BUFLEN are copied first, and then the buffer word by word. -/
theorem restoreGivesTheSavedContext : Obligations.RestoreGivesTheSavedContext := by
  intro s r hs ⟨hr, _⟩
  rw [restoreContext_savedContext hs, contextIndices_eq, List.foldl_append, copyRegister_beforeBuffer s hr]
  exact copyRegister_buffer s hr

end Sys2Proof.Machine
end

section
/-! The compression transform against spec/43_compression.md: its round functions and constants, its schedule, the rolling
window, and two known values (R211 to R222). -/

namespace Sys2Proof.Machine

/-! ## Round functions and constants -/

/-- Settles O47: the ranges of the two definitions, one by one. -/
theorem roundFunctionsAndConstants : Obligations.RoundFunctionsAndConstants := by
  intro t b c d
  unfold roundFunction roundConstant
  refine ⟨fun h => ?_, fun hlo hhi => ?_, fun hlo hhi => ?_, fun hlo _ => ?_⟩
  · simp [h]
  · simp [hhi, Nat.not_lt.mpr hlo]
  · simp [hhi, show ¬ t < 20 by omega, Nat.not_lt.mpr hlo]
  · simp [show ¬ t < 20 by omega, show ¬ t < 40 by omega, Nat.not_lt.mpr hlo]

/-- `b` selects a bit of `c` or of `d`, never both (spec/43_compression.md R219). -/
theorem ch_disjoint (b c d : Word) : (b &&& c) &&& (~~~b &&& d) = 0 := by
  ext i hi
  simp only [BitVec.getElem_and, BitVec.getElem_not]
  cases b[i] <;> simp

theorem or_eq_xor_of_and_eq_zero {x y : Word} (h : x &&& y = 0) : x ||| y = x ^^^ y := by
  ext i hi
  have hbit : (x[i] && y[i]) = false := by simpa using congrArg (·[i]) h
  simp only [BitVec.getElem_or, BitVec.getElem_xor]
  revert hbit
  cases x[i] <;> simp

theorem maj_eq_xor (x y z : Word) : (x &&& y) ||| (x &&& z) ||| (y &&& z) = (x &&& y) ^^^ (x &&& z) ^^^ (y &&& z) := by
  ext i hi
  simp only [BitVec.getElem_or, BitVec.getElem_xor, BitVec.getElem_and]
  cases x[i] <;> cases y[i] <;> cases z[i] <;> rfl

theorem maj_eq_or (x y z : Word) : (x &&& y) ||| (x &&& z) ||| (y &&& z) = (x &&& y) ||| (z &&& (x ||| y)) := by
  ext i hi
  simp only [BitVec.getElem_or, BitVec.getElem_and]
  cases x[i] <;> cases y[i] <;> cases z[i] <;> rfl

/-- Settles O48: the two operands of Ch have no bit in common; the forms of Maj agree bit by bit. -/
theorem equivalentRoundFunctions : Obligations.EquivalentRoundFunctions := by
  intro t b c d
  obtain ⟨hch, -, hmaj, -⟩ := roundFunctionsAndConstants t b c d
  refine ⟨fun h => ?_, fun hlo hhi => ?_⟩
  · have hdisjoint := ch_disjoint b c d
    rw [(hch h).1]
    exact ⟨or_eq_xor_of_and_eq_zero hdisjoint, (BitVec.add_eq_or_of_and_eq_zero _ _ hdisjoint).symm⟩
  · rw [(hmaj hlo hhi).1]
    exact ⟨maj_eq_xor b c d, maj_eq_or b c d⟩

/-! ## The schedule and the rolling window -/

theorem rotl_one (x : Word) : rotl x 1 = x.rotateLeft 1 := rfl

theorem loadWords_getD (B : Buffer) {i : Nat} (hi : i < 16) :
    (loadWords B).getD i 0 =
      byteAt B (4 * i) ++ byteAt B (4 * i + 1) ++ byteAt B (4 * i + 2) ++ byteAt B (4 * i + 3) := by
  simp [loadWords, wordBe, hi]

/-- Settles O49: the first words are those loaded, and the later ones obey the recurrence. -/
theorem scheduleRecurrence : Obligations.ScheduleRecurrence := by
  refine fun B => ⟨length_schedule B, fun i hi => ?_, fun t hlo hhi => ?_⟩
  · rw [schedule_getD_first B hi, loadWords_getD B hi]
  · rw [schedule_getD_later B hlo hhi, rotl_one]

/-- The window's updates of the rounds up to `n` leave it ready for round `n`. -/
theorem windowHolds_foldl_windowStep (B : Buffer) {n : Nat} (hn : n ≤ 80) :
    WindowHolds (schedule B) n ((List.range n).foldl (fun w r => windowStep r w) (loadWindow B)) := by
  induction n with
  | zero => exact windowHolds_loadWindow B
  | succ n ih =>
    rw [List.range_succ, List.foldl_concat]
    exact windowHolds_windowStep B hn (ih (by omega))

/-- Settles O51: after the update of round `t` the window holds the schedule words up to word `t`. -/
theorem rollingWindowShowsTheSchedule : Obligations.RollingWindowShowsTheSchedule := fun B t ht =>
  windowHolds_foldl_windowStep B ht t (by omega) (by omega)

/-! ## Known values -/

/-- Settles O50: both blocks are closed, and the transform computes each. -/
theorem knownCompressions : Obligations.KnownCompressions := by
  unfold Obligations.KnownCompressions
  decide +kernel

end Sys2Proof.Machine
end

section
/-! A clock cycle of the compression unit, said once by its four kinds, and the command's cycles as a whole
(spec/43_compression.md R223 to R226). -/

namespace Sys2Proof.Machine.CompUnit

/-! ## The kinds of clock cycles -/

section
variable (p : Config.Form) {u : CompUnit}

theorem clock_overhead (h : 0 < u.overhead) : u.clock p = ({ u with overhead := u.overhead - 1 }, false) :=
  if_pos h

theorem roundsNow_lastCycle (h : u.lastCycle p = true) : u.roundsNow p = 80 - u.t.toNat := if_pos h

/-- A cycle in the middle of a block. -/
theorem clock_inBlock (h : u.overhead = 0) (hl : u.lastCycle p = false) :
    u.clock p = ({ rounds (u.roundsNow p) u with cycle := u.cycle + 1 }, false) := by
  simp [clock, h, hl]

/-- The last cycle of a block that another one follows. -/
theorem clock_nextBlock {B : Buffer} {rest : List Buffer} (h : u.overhead = 0) (hl : u.lastCycle p = true)
    (hn : u.next = B :: rest) :
    u.clock p = (load (u.chain.add (rounds (80 - u.t.toNat) u).work) B rest (rounds (80 - u.t.toNat) u), false) := by
  simp [clock, h, hl, hn, roundsNow_lastCycle]

/-- The last cycle of the last block hands out the result. -/
theorem clock_lastBlock (h : u.overhead = 0) (hl : u.lastCycle p = true) (hn : u.next = []) :
    u.clock p = ({ rounds (80 - u.t.toNat) u with cycle := 0, t := 0, chain := u.result }, true) := by
  simp [clock, h, hl, hn, roundsNow_lastCycle, result, compressAll]

end

/-! ## The cycles of a command -/

/-- The last cycle of a command leaves the result in the unit. -/
theorem chain_clock_of_last {p : Config.Form} {u : CompUnit} (h : (u.clock p).2 = true) :
    (u.clock p).1.chain = u.result := by
  by_cases hov : 0 < u.overhead
  · simp [clock_overhead p hov] at h
  · have h0 : u.overhead = 0 := by omega
    cases hl : u.lastCycle p
    · simp [clock_inBlock p h0 hl] at h
    · cases hn : u.next with
      | nil => rw [clock_lastBlock p h0 hl hn]
      | cons B rest => simp [clock_nextBlock p h0 hl hn] at h

/-- When the cycles left have run, the unit holds its result. -/
theorem chain_clocks_cyclesLeft (p : Config.Form) {n : Nat} {u : CompUnit} (hc : u.cycle < p.tBlock)
    (hn : u.cyclesLeft p = n) : (clocks p n u).chain = u.result := by
  induction n generalizing u with
  | zero => rcases cyclesLeft_clock p u hc with ⟨-, h, -⟩ | ⟨-, h⟩ <;> omega
  | succ n ih =>
    rw [clocks]
    rcases cyclesLeft_clock p u hc with ⟨hmore, hleft, hc'⟩ | ⟨hlast, hleft⟩
    · rw [ih hc' (by omega), result_clock p u hmore]
    · obtain rfl : n = 0 := by omega
      exact chain_clock_of_last hlast

/-- A started unit needs the cycles of spec/70_reset_and_hazards.md R292. -/
theorem cyclesLeft_start (p : Config.Form) (H : Hash) {blocks : List Buffer} (u : CompUnit) (h : blocks ≠ []) :
    (u.start p H blocks).cyclesLeft p = p.tFixed + blocks.length * p.tBlock := by
  cases blocks with
  | nil => exact absurd rfl h
  | cons B rest => simp [start, load, cyclesLeft, Nat.add_mul]; omega

theorem cycle_start (p : Config.Form) (H : Hash) {blocks : List Buffer} (u : CompUnit) (h : blocks ≠ []) :
    (u.start p H blocks).cycle = 0 := by
  cases blocks with
  | nil => exact absurd rfl h
  | cons B rest => rfl

/-- Settles O52: a started unit will compute the blocks' compressions, and that result stands when its cycles have run. -/
theorem everyFormGivesCompress : Obligations.EveryFormGivesCompress := by
  intro p H blocks u h
  have hc : (u.start p H blocks).cycle < p.tBlock := by rw [cycle_start p H u h]; exact tBlock_pos p
  rw [chain_clocks_cyclesLeft p hc (cyclesLeft_start p H u h), result_start p H u h, compressAll]

end Sys2Proof.Machine.CompUnit
end

section
/-! What the compression unit holds is never seen (spec/43_compression.md R227): every operation takes two states that differ in
the unit's data alone to two that do. -/

namespace Sys2Proof.Machine

/-! ## Units in step -/

/-- Two units at the same point of their clock cycles, whatever data they hold. -/
structure SameTiming (u v : CompUnit) : Prop where
  overhead : u.overhead = v.overhead
  cycle : u.cycle = v.cycle
  waiting : u.next.length = v.next.length

namespace SameTiming

theorem refl (u : CompUnit) : SameTiming u u := ⟨rfl, rfl, rfl⟩

theorem start {u v : CompUnit} (e : SameTiming u v) (p : Config.Form) (H : Hash) (blocks : List Buffer) :
    SameTiming (u.start p H blocks) (v.start p H blocks) := by
  cases blocks with
  | nil => exact e
  | cons => exact ⟨rfl, rfl, rfl⟩

/-- A clock cycle keeps two units in step, and is the last of a command in both or in neither. -/
theorem clock {u v : CompUnit} (e : SameTiming u v) (p : Config.Form) :
    (u.clock p).2 = (v.clock p).2 ∧ SameTiming (u.clock p).1 (v.clock p).1 := by
  obtain ⟨hov, hc, hn⟩ := e
  by_cases h : 0 < u.overhead
  · rw [CompUnit.clock_overhead p h, CompUnit.clock_overhead p (hov ▸ h)]
    exact ⟨rfl, congrArg (· - 1) hov, hc, hn⟩
  have hu : u.overhead = 0 := by omega
  have hv : v.overhead = 0 := by omega
  have hl : u.lastCycle p = v.lastCycle p := by rw [CompUnit.lastCycle, CompUnit.lastCycle, hc]
  cases hlu : u.lastCycle p
  · rw [CompUnit.clock_inBlock p hu hlu, CompUnit.clock_inBlock p hv (hl ▸ hlu)]
    exact ⟨rfl, by simpa using hov, congrArg (· + 1) hc, by simpa using hn⟩
  · match hnu : u.next, hnv : v.next with
    | [], [] =>
      rw [CompUnit.clock_lastBlock p hu hlu hnu, CompUnit.clock_lastBlock p hv (hl ▸ hlu) hnv]
      exact ⟨rfl, by simpa using hov, rfl, by simpa using hn⟩
    | _ :: _, _ :: _ =>
      rw [CompUnit.clock_nextBlock p hu hlu hnu, CompUnit.clock_nextBlock p hv (hl ▸ hlu) hnv]
      exact ⟨rfl, by simpa [CompUnit.load] using hov, rfl, by simpa [CompUnit.load, hnu, hnv] using hn⟩
    | [], _ :: _ | _ :: _, [] => simp [hnu, hnv] at hn

end SameTiming

/-! ## States that differ in the unit's data -/

theorem agree_withUnit (s : State) {v : CompUnit} (e : SameTiming s.unit v) : AgreeButUnitData s { s with unit := v } :=
  ⟨rfl, e.overhead, e.cycle, e.waiting⟩

theorem agree_refl (s : State) : AgreeButUnitData s s := agree_withUnit s (.refl s.unit)

theorem AgreeButUnitData.eq_withUnit {s t : State} (e : AgreeButUnitData s t) :
    ∃ v, t = { s with unit := v } ∧ SameTiming s.unit v := by
  obtain ⟨heq, hov, hc, hn⟩ := e
  exact ⟨t.unit, heq.symm, hov, hc, hn⟩

/-- An operation under which the unit's data does not come to light. -/
def HidesUnitData (f : State → State) : Prop :=
  ∀ ⦃s t : State⦄, AgreeButUnitData s t → AgreeButUnitData (f s) (f t)

/-- An operation that neither looks at the unit nor moves it. -/
def IgnoresUnit (f : State → State) : Prop := ∀ s v, f { s with unit := v } = { f s with unit := v }

theorem IgnoresUnit.hides {f : State → State} (hf : IgnoresUnit f) : HidesUnitData f := by
  intro s t e
  obtain ⟨v, rfl, htime⟩ := e.eq_withUnit
  have hunit : (f s).unit = s.unit := (congrArg State.unit (hf s s.unit) :)
  rw [hf s v]
  exact agree_withUnit (f s) (hunit ▸ htime)

theorem ignoresUnit_raise (c : ErrCode) : IgnoresUnit (raise c) := fun _ _ => rfl

section
variable {f : State → State} (hf : HidesUnitData f)
include hf

theorem hidesUnitData_writeContext : HidesUnitData (writeContext f) := by
  intro s t e
  have hi : s.inflight = t.inflight := (congrArg State.inflight e.1 :)
  unfold writeContext
  rw [← hi]
  split
  exacts [hf e, (ignoresUnit_raise .busy).hides e]

theorem hidesUnitData_acceptWhenIdle : HidesUnitData (acceptWhenIdle f) := hidesUnitData_writeContext hf

theorem hidesUnitData_acceptInAbsorb : HidesUnitData (acceptInAbsorb f) := by
  intro s t e
  have hi : s.inflight = t.inflight := (congrArg State.inflight e.1 :)
  have hfinal : s.final = t.final := (congrArg State.final e.1 :)
  unfold acceptInAbsorb
  rw [← hi, ← hfinal]
  split
  · split
    exacts [(ignoresUnit_raise .afterFinal).hides e, hf e]
  · exact (ignoresUnit_raise .busy).hides e

end

/-! ## Commands -/

/-- A command starts both units on the same blocks. -/
theorem hidesUnitData_launch (k : InFlight) (H : Hash) (blocks : List Buffer) : HidesUnitData (launch k H blocks) := by
  intro s t e
  obtain ⟨v, rfl, htime⟩ := e.eq_withUnit
  exact agree_withUnit (launch k H blocks s) (htime.start Config.form H blocks)

theorem hidesUnitData_absorbByte (b : Byte) : HidesUnitData (absorbByte · b) := by
  intro s t e
  obtain ⟨v, rfl, htime⟩ := e.eq_withUnit
  change AgreeButUnitData (absorbByte s b) (absorbByte _ b)
  by_cases hfull : s.buflen.toNat + 1 = 64
  · rw [absorbByte_full s b hfull, absorbByte_full { s with unit := v } b hfull]
    exact hidesUnitData_launch .upd s.h _ (agree_withUnit _ htime)
  · have hroom : s.buflen.toNat + 1 < 64 := by have := s.buflen.isLt; omega
    rw [absorbByte_open s b hroom, absorbByte_open { s with unit := v } b hroom]
    exact agree_withUnit _ htime

theorem hidesUnitData_absorb (bs : List Byte) : HidesUnitData (absorb · bs) := by
  induction bs with
  | nil => exact fun _ _ e => e
  | cons b bs ih => exact fun _ _ e => ih (hidesUnitData_absorbByte b e)

theorem hidesUnitData_updateEffect (nb : Nat) : HidesUnitData (updateEffect nb) := by
  intro s t e
  obtain ⟨v, rfl, htime⟩ := e.eq_withUnit
  exact hidesUnitData_absorb _ (agree_withUnit { s with len := s.len + BitVec.ofNat 64 nb } htime)

theorem hidesUnitData_finalizeEffect : HidesUnitData finalizeEffect := by
  intro s t e
  obtain ⟨v, rfl, htime⟩ := e.eq_withUnit
  exact agree_withUnit _ (htime.start _ _ _)

theorem hidesUnitData_finalizeResetEffect : HidesUnitData finalizeResetEffect := by
  intro s t e
  obtain ⟨v, rfl, htime⟩ := e.eq_withUnit
  exact agree_withUnit _ (htime.start _ _ _)

theorem hidesUnitData_command (c : Command) : HidesUnitData (after c.toInstr) := by
  cases c with
  | nop | clearErr | badCmd => exact IgnoresUnit.hides fun _ _ => rfl
  | updateNb0to3 | updateNb4 => exact hidesUnitData_acceptInAbsorb (hidesUnitData_updateEffect _)
  | finalize => exact hidesUnitData_acceptInAbsorb hidesUnitData_finalizeEffect
  | finalizeReset => exact hidesUnitData_acceptInAbsorb hidesUnitData_finalizeResetEffect
  | reset => exact hidesUnitData_acceptWhenIdle (IgnoresUnit.hides fun _ _ => rfl)

/-! ## Reads and writes -/

/-- No register shows the unit (spec/10_state.md R45). -/
theorem registerValue_withUnit (i : Instr) (s : State) (v : CompUnit) :
    registerValue i { s with unit := v } = registerValue i s := by
  cases i <;> rfl

theorem ignoresUnit_read {i : Instr} (hi : isRead i) : IgnoresUnit (after i) := by
  intro s v
  by_cases hopen : readIsUnspec i s
  · rw [after_eq_of_exec (exec_openRead hopen), after_eq_of_exec (exec_openRead (s := { s with unit := v }) hopen)]
    rfl
  · rw [after_eq_of_exec (exec_specifiedRead hi hopen),
      after_eq_of_exec (exec_specifiedRead (s := { s with unit := v }) hi hopen), registerValue_withUnit]
    rfl

theorem ignoresUnit_writesBadAddress {i : Instr} (hi : writesBadAddress i = true) : IgnoresUnit (after i) := by
  intro s v
  rw [after_eq_of_exec (exec_writesBadAddress hi _), after_eq_of_exec (exec_writesBadAddress hi _)]
  rfl

theorem hidesUnitData_wrBuflen (v : Word) : HidesUnitData (after (.wrBuflen v)) := by
  have hset : HidesUnitData (writeContext fun s => { s with buflen := buflenLower v }) :=
    hidesUnitData_writeContext (IgnoresUnit.hides fun _ _ => rfl)
  intro s t e
  by_cases hv : 64 ≤ v.toNat
  · rw [after_eq_of_exec (exec_wrBuflen_large hv s), after_eq_of_exec (exec_wrBuflen_large hv t)]
    exact (ignoresUnit_raise .badValue).hides e
  · have hv : v.toNat < 64 := by omega
    rw [after_eq_of_exec (exec_wrBuflen_small hv s), after_eq_of_exec (exec_wrBuflen_small hv t)]
    exact hset e

/-- Every instruction hides the unit's data. -/
theorem hidesUnitData_after (i : Instr) : HidesUnitData (after i) := by
  cases i
  case wrCmd v => rw [after_wrCmd]; exact hidesUnitData_command (decodeCommand v)
  case nop => exact hidesUnitData_command .nop
  case updateNb0to3 nb => exact hidesUnitData_command (.updateNb0to3 nb)
  case updateNb4 => exact hidesUnitData_command .updateNb4
  case finalize => exact hidesUnitData_command .finalize
  case finalizeReset => exact hidesUnitData_command .finalizeReset
  case reset => exact hidesUnitData_command .reset
  case clearErr => exact hidesUnitData_command .clearErr
  case badCmd w => exact hidesUnitData_command (.badCmd w)
  case wrData v => exact IgnoresUnit.hides fun _ _ => rfl
  case wrBuflen v => exact hidesUnitData_wrBuflen v
  case wrH0 | wrH1 | wrH2 | wrH3 | wrH4 | wrLenLo | wrLenHi | wrBuf =>
    exact hidesUnitData_writeContext (IgnoresUnit.hides fun _ _ => rfl)
  case wrInfo | wrStatus | wrDigest0 | wrDigest1 | wrDigest2 | wrDigest3 | wrDigest4 | wrReserved9 | wrReserved10to11 |
      wrReserved12to15 | wrReserved24to31 | wrReserved48to63 =>
    exact (ignoresUnit_writesBadAddress rfl).hides
  all_goals exact (ignoresUnit_read (by simp [isRead, readsDigest, readsContext, readsReserved])).hides

/-! ## The engine and the host's side -/

/-- The engine's move is a completion in both or in neither. -/
theorem hidesUnitData_engineStep : HidesUnitData engineStep := by
  intro s t e
  obtain ⟨v, rfl, htime⟩ := e.eq_withUnit
  obtain ⟨hlast, hnext⟩ := htime.clock Config.form
  rcases engineStep_cases s with ⟨hs, es⟩ | ⟨hs, es⟩ <;>
    rcases engineStep_cases { s with unit := v } with ⟨ht, et⟩ | ⟨ht, et⟩
  case inl.inl | inr.inr => rw [es, et]; exact agree_withUnit _ hnext
  case inl.inr | inr.inl => exact absurd (hs.symm.trans (hlast.trans ht)) (by decide)

theorem ignoresUnit_ignoredAccess (c : Code) : IgnoresUnit (ignoredAccess c) := by
  intro s v
  cases c with
  | cmd => rfl
  | bus op w => cases h : weField op <;> simp [ignoredAccess, h, returnWord]

theorem ignoresUnit_pollOnce : IgnoresUnit pollOnce := by
  intro s v
  obtain hr | hr := Bool.eq_false_or_eq_true s.rstN
  · obtain hb | hb := Bool.eq_false_or_eq_true s.busy
    · rw [pollOnce_busy hr hb, pollOnce_busy (s := { s with unit := v }) hr hb]
      rfl
    · rw [pollOnce_idle hr hb, pollOnce_idle (s := { s with unit := v }) hr hb]
      rfl
  · rw [pollOnce_reset hr, pollOnce_reset (s := { s with unit := v }) hr]

/-- The pin gives both units their reset contents, or leaves them alone. -/
theorem hidesUnitData_setRstN (level : Bool) : HidesUnitData (setRstN level) := by
  intro s t e
  obtain ⟨v, rfl, htime⟩ := e.eq_withUnit
  unfold setRstN
  split
  exacts [agree_withUnit s htime, agree_refl _]

/-- Both answers go on, to states that differ in the unit's data alone. -/
def GoOnAgreeing (r₁ r₂ : Result) : Prop := ∃ t₁ t₂, r₁ = .next t₁ ∧ r₂ = .next t₂ ∧ AgreeButUnitData t₁ t₂

theorem goOnAgreeing_exec (i : Instr) {s t : State} (e : AgreeButUnitData s t) : GoOnAgreeing (exec i s) (exec i t) :=
  ⟨_, _, exec_after i s, exec_after i t, hidesUnitData_after i e⟩

theorem hidesUnitData_takeItem (rest : List HostItem) : HidesUnitData (takeItem rest) :=
  IgnoresUnit.hides fun _ _ => rfl

theorem goOnAgreeing_hostStep {s t : State} (e : AgreeButUnitData s t) : GoOnAgreeing (hostStep s) (hostStep t) := by
  have hpending : s.pending = t.pending := (congrArg State.pending e.1 :)
  have hrst : s.rstN = t.rstN := (congrArg State.rstN e.1 :)
  have htake := fun rest => hidesUnitData_takeItem rest e
  simp only [hostStep, ← hpending, ← hrst]
  match s.pending with
  | [] => exact ⟨_, _, rfl, rfl, e⟩
  | .access c :: rest =>
    cases s.rstN
    · exact ⟨_, _, rfl, rfl, (ignoresUnit_ignoredAccess c).hides (htake rest)⟩
    · exact goOnAgreeing_exec (decode c) (htake rest)
  | .poll :: rest => exact ⟨_, _, rfl, rfl, ignoresUnit_pollOnce.hides (htake rest)⟩
  | .rst level :: rest => exact ⟨_, _, rfl, rfl, hidesUnitData_setRstN level (htake rest)⟩

theorem engineTurn_of_agree {s t : State} (e : AgreeButUnitData s t) : s.engineTurn = t.engineTurn := by
  obtain ⟨v, rfl, -⟩ := e.eq_withUnit
  rfl

/-- Settles O46: it is the engine's turn in both or in neither, and either move hides the unit's data. -/
theorem unitDataIsInvisible : Obligations.UnitDataIsInvisible := by
  intro s t e
  have hbegin : AgreeButUnitData (beginStep s) (beginStep t) := IgnoresUnit.hides (fun _ _ => rfl) e
  have hturn := engineTurn_of_agree e
  cases hs : s.engineTurn
  · rw [step_hostTurn hs, step_hostTurn (hturn ▸ hs)]
    exact goOnAgreeing_hostStep hbegin
  · exact ⟨_, _, step_engineTurn hs, step_engineTurn (hturn ▸ hs), hidesUnitData_engineStep hbegin⟩

end Sys2Proof.Machine
end

section
/-! Errors (spec/60_exceptions.md): what an access raises by its causes in their order, what clears an error, and the record of
raises along instructions and steps. -/

namespace Sys2Proof.Machine

/-! ## The error fields -/

/-- ERR, ERRCODE and the record are in `t` as in `s`. -/
def KeepsErrors (s t : State) : Prop := t.faults = s.faults ∧ t.err = s.err ∧ t.errcode = s.errcode

theorem keepsErrors_updateEffect (nb : Nat) (s : State) : KeepsErrors s (updateEffect nb s) :=
  ⟨updateEffect_faults nb s, updateEffect_err nb s, updateEffect_errcode nb s⟩

/-- The engine raises and clears nothing (spec/60_exceptions.md R256). -/
theorem keepsErrors_engineStep (s : State) : KeepsErrors s (engineStep s) := by
  rcases engineStep_cases s with ⟨-, e⟩ | ⟨-, e⟩ <;> rw [e]
  all_goals exact ⟨rfl, rfl, rfl⟩

/-! ## The causes of an error, in the order of spec/60_exceptions.md R254 -/

/-- A form error is raised in every state. -/
theorem exec_of_formError {i : Instr} {c : ErrCode} (h : formError i = some c) (s : State) :
    exec i s = .next (raise c s) := by
  unfold formError at h
  split at h
  next hbad =>
    cases h
    exact exec_writesBadAddress hbad s
  next =>
    split at h
    next w =>
      cases h
      rfl
    next v =>
      split at h
      next => cases h
      next hv =>
        cases h
        exact exec_wrBuflen_large (not_lt.mp hv) s
    next => cases h

/-- A context write of a legal form has the one check BUSY, and no effect on the error fields. -/
theorem exec_of_writesContext {i : Instr} (h : writesContext i = true) (hform : formError i = none) :
    ∃ f, (∀ s, exec i s = .next (writeContext f s)) ∧ ∀ s, KeepsErrors s (f s) := by
  cases i
  case wrH0 | wrH1 | wrH2 | wrH3 | wrH4 | wrLenLo | wrLenHi | wrBuf =>
    exact ⟨_, fun _ => rfl, fun _ => ⟨rfl, rfl, rfl⟩⟩
  case wrBuflen v =>
    have hv : v.toNat < 64 := by simpa [formError, writesBadAddress] using hform
    exact ⟨_, exec_wrBuflen_small hv, fun _ => ⟨rfl, rfl, rfl⟩⟩
  all_goals cases h

/-- The instructions that raise BUSY while a command is in flight (spec/60_exceptions.md R253), a write to CMD being the command it
issues. -/
def RefusedWhenBusy (i : Instr) : Prop := writesContext i = true ∨ refusedAfterFinal i = true ∨ i = .reset

theorem writesContext_issued (i : Instr) : writesContext (issued i) = writesContext i := by
  cases i
  case wrCmd v => exact writesContext_toInstr (decodeCommand v)
  all_goals rfl

/-- With a command in flight BUSY comes next. -/
theorem exec_of_busy {i : Instr} {s : State} (hform : formError i = none) (hb : s.inflight ≠ .none)
    (h : RefusedWhenBusy i) : exec i s = .next (raise .busy s) := by
  obtain hw | hr | rfl := h
  · obtain ⟨f, he, -⟩ := exec_of_writesContext hw hform
    rw [he, writeContext_busy hb]
  · obtain ⟨f, he⟩ := exec_of_refusedAfterFinal hr
    rw [he, acceptInAbsorb_busy hb]
  · exact congrArg Host.Outcome.next (acceptWhenIdle_busy hb)

/-- Which cause makes the error an access is due, or that there is none. -/
theorem expectedError_cases (i : Instr) (s : State) :
    (∃ c, formError (issued i) = some c ∧ expectedError i s = some c) ∨
    (formError (issued i) = none ∧
      ((s.inflight ≠ .none ∧ RefusedWhenBusy (issued i) ∧ expectedError i s = some .busy) ∨
       (s.inflight = .none ∧ s.final = true ∧ refusedAfterFinal (issued i) = true ∧
          expectedError i s = some .afterFinal) ∨
       ((RefusedWhenBusy (issued i) → s.inflight = .none) ∧ (refusedAfterFinal (issued i) = true → s.final = false) ∧
          expectedError i s = none))) := by
  cases hform : formError (issued i) with
  | some c => exact .inl ⟨c, rfl, by simp [expectedError, hform]⟩
  | none =>
    refine .inr ⟨rfl, ?_⟩
    simp only [expectedError, hform, ← writesContext_issued i]
    by_cases hbusy : s.inflight ≠ .none ∧ RefusedWhenBusy (issued i)
    · exact .inl ⟨hbusy.1, hbusy.2, if_pos hbusy⟩
    have hidle : RefusedWhenBusy (issued i) → s.inflight = .none := fun h => by_contra fun hb => hbusy ⟨hb, h⟩
    by_cases hfinal : s.final = true ∧ refusedAfterFinal (issued i) = true
    · obtain ⟨hf, hr⟩ := hfinal
      exact .inr (.inl ⟨hidle (.inr (.inl hr)), hf, hr, (if_neg hbusy).trans (if_pos ⟨hf, hr⟩)⟩)
    · exact .inr (.inr ⟨hidle, fun h => by simpa [h] using hfinal, (if_neg hbusy).trans (if_neg hfinal)⟩)

/-! ## The accesses that raise nothing -/

/-- `i` runs in `s` with no raise, and leaves ERR and ERRCODE alone unless it is CLEAR_ERR. -/
def RaisesNothing (i : Instr) (s : State) : Prop :=
  ∃ t, exec i s = .next t ∧ t.faults = s.faults ∧ (i ≠ .clearErr → t.err = s.err ∧ t.errcode = s.errcode)

theorem raisesNothing_of_keepsErrors {i : Instr} {s t : State} (h : exec i s = .next t) (hk : KeepsErrors s t) :
    RaisesNothing i s := ⟨t, h, hk.1, fun _ => hk.2⟩

theorem raisesNothing_absorbing {i : Instr} {s : State} (h : refusedAfterFinal i = true) (ha : Absorbing s) :
    RaisesNothing i s := by
  cases i
  case updateNb0to3 nb =>
    exact raisesNothing_of_keepsErrors (exec_update_absorbing (.inl ⟨nb, rfl, rfl⟩) ha) (keepsErrors_updateEffect _ s)
  case updateNb4 =>
    exact raisesNothing_of_keepsErrors (exec_update_absorbing (.inr ⟨rfl, rfl⟩) ha) (keepsErrors_updateEffect _ s)
  case finalize => exact raisesNothing_of_keepsErrors (exec_finalize_absorbing ha) ⟨rfl, rfl, rfl⟩
  case finalizeReset => exact raisesNothing_of_keepsErrors (exec_finalizeReset_absorbing ha) ⟨rfl, rfl, rfl⟩
  all_goals cases h

/-- With nothing in flight and the phase no obstacle, what can be refused is accepted. -/
theorem raisesNothing_accepted {i : Instr} {s : State} (hform : formError i = none) (hs : s.inflight = .none)
    (hf : refusedAfterFinal i = true → s.final = false) (h : RefusedWhenBusy i) : RaisesNothing i s := by
  obtain hw | hr | rfl := h
  · obtain ⟨f, he, hk⟩ := exec_of_writesContext hw hform
    exact raisesNothing_of_keepsErrors (by rw [he, writeContext_idle hs]) (hk s)
  · exact raisesNothing_absorbing hr ⟨hs, hf hr⟩
  · exact raisesNothing_of_keepsErrors (exec_reset_idle hs) ⟨rfl, rfl, rfl⟩

theorem raisesNothing_read {i : Instr} (h : isRead i) (s : State) : RaisesNothing i s := by
  obtain ⟨t, ht, hk⟩ := exec_read_errors h s
  exact raisesNothing_of_keepsErrors ht hk

/-- What no check refuses: the reads, WR DATA, NOP and CLEAR_ERR (spec/60_exceptions.md R253). -/
theorem raisesNothing_unchecked {i : Instr} (s : State) (hi : ∀ v, i ≠ .wrCmd v) (hform : formError i = none)
    (h : ¬ RefusedWhenBusy i) : RaisesNothing i s := by
  cases i
  case nop | wrData => exact raisesNothing_of_keepsErrors rfl ⟨rfl, rfl, rfl⟩
  case clearErr => exact ⟨clearError s, rfl, rfl, fun hne => absurd rfl hne⟩
  case rdInfo | rdCmd | rdData | rdStatus => exact raisesNothing_read (by simp [isRead]) s
  case rdDigest0 | rdDigest1 | rdDigest2 | rdDigest3 | rdDigest4 =>
    exact raisesNothing_read (by simp [isRead, readsDigest]) s
  case rdH0 | rdH1 | rdH2 | rdH3 | rdH4 | rdLenLo | rdLenHi | rdBuflen | rdBuf =>
    exact raisesNothing_read (by simp [isRead, readsContext]) s
  case rdReserved9 | rdReserved10to11 | rdReserved12to15 | rdReserved24to31 | rdReserved48to63 =>
    exact raisesNothing_read (by simp [isRead, readsReserved]) s
  case wrCmd v => exact absurd rfl (hi v)
  case wrH0 | wrH1 | wrH2 | wrH3 | wrH4 | wrLenLo | wrLenHi | wrBuflen | wrBuf => exact absurd (.inl rfl) h
  case updateNb0to3 | updateNb4 | finalize | finalizeReset => exact absurd (.inr (.inl rfl)) h
  case reset => exact absurd (.inr (.inr rfl)) h
  all_goals cases hform

/-- A write to CMD issues a command, which is no write to CMD. -/
theorem issued_ne_wrCmd (i : Instr) (v : Word) : issued i ≠ .wrCmd v := by
  cases i
  case wrCmd w =>
    show (decodeCommand w).toInstr ≠ .wrCmd v
    cases decodeCommand w <;> exact nofun
  all_goals exact nofun

/-- Settles O24: the causes one by one in their order, and the accesses that meet none. -/
theorem everyAccessRaisesTheErrorItIsDue : Obligations.EveryAccessRaisesTheErrorItIsDue := by
  intro i s
  rcases expectedError_cases i s with ⟨c, hform, h⟩ |
    ⟨hform, ⟨hb, hr, h⟩ | ⟨hs, hf, hr, h⟩ | ⟨hidle, hf, h⟩⟩ <;> rw [h, ← exec_issued]
  · exact exec_of_formError hform s
  · exact exec_of_busy hform hb hr
  · obtain ⟨f, he⟩ := exec_of_refusedAfterFinal hr
    rw [he, acceptInAbsorb_final hs hf]
    rfl
  · by_cases hr : RefusedWhenBusy (issued i)
    · exact raisesNothing_accepted hform (hidle hr) hf hr
    · exact raisesNothing_unchecked s (issued_ne_wrCmd i) hform hr

/-! ## The return from an error -/

/-- An error that STATUS shows stands until CLEAR_ERR, with its code (spec/60_exceptions.md R257). -/
theorem effect_err {i : Instr} {s t : State} (e : Effect i s t) (hs : s.err = true) (hi : i ≠ .clearErr) :
    t.err = true ∧ t.errcode = s.errcode := by
  cases e with
  | clear => exact absurd rfl hi
  | error => exact ⟨rfl, if_pos hs⟩
  | update => exact ⟨(updateEffect_err _ s).trans hs, updateEffect_errcode _ s⟩
  | _ => exact ⟨hs, rfl⟩

/-- Settles O26: CLEAR_ERR and hardware reset by their meanings, every other instruction by the shapes of `Effect`. -/
theorem onlyClearErrClearsTheError : Obligations.OnlyClearErrClearsTheError := by
  refine ⟨fun i s hi => ⟨clearError s, ?_, rfl, rfl⟩, fun i s t ht => effect_err (effect_of_exec ht),
    fun s => (keepsErrors_engineStep s).2, fun s => ⟨rfl, rfl⟩⟩
  calc exec i s
      = exec .clearErr s := by rw [← exec_issued, hi]
    _ = .next (clearError s) := rfl

/-! ## The record of raises -/

theorem faults_grow_of_eq {s t : State} (h : t.faults = s.faults) : s.faults <+: t.faults :=
  ⟨[], by rw [List.append_nil, h]⟩

/-- A raise adds to the record, and nothing else touches it (spec/60_exceptions.md R268). -/
theorem effect_faults {i : Instr} {s t : State} (e : Effect i s t) : s.faults <+: t.faults := by
  cases e with
  | error _ _ c => exact ⟨[c], rfl⟩
  | update => exact faults_grow_of_eq (updateEffect_faults _ s)
  | _ => exact faults_grow_of_eq rfl

theorem ignoredAccess_faults (c : Code) (s : State) : (ignoredAccess c s).faults = s.faults := by
  rw [ignoredAccess_eq]

theorem pollOnce_faults (s : State) : (pollOnce s).faults = s.faults := by
  simp only [pollOnce, apply_ite State.faults, returnWord_faults, ite_self]

/-- The pin leaves the record alone, hardware reset included. -/
theorem setRstN_faults (level : Bool) (s : State) : (setRstN level s).faults = s.faults := by
  rcases setRstN_cases level s with ⟨-, -, e⟩ | ⟨-, e⟩ <;> rw [e]
  rfl

/-- A step goes on, and the record grows in it or stays. -/
theorem step_faults (s : State) : ∃ t, step s = .next t ∧ s.faults <+: t.faults := by
  rcases step_cases s with ⟨-, e⟩ | ⟨-, ⟨-, e⟩ | ⟨c, rest, -, -, e⟩ | ⟨c, rest, -, -, e⟩ |
    ⟨rest, -, e⟩ | ⟨level, rest, -, e⟩⟩
  · exact ⟨_, e, faults_grow_of_eq (keepsErrors_engineStep (beginStep s)).1⟩
  · exact ⟨_, e, faults_grow_of_eq (beginStep_faults s)⟩
  · have hgrows := effect_faults (effect_after (decode c) (takeItem rest (beginStep s)))
    exact ⟨_, e.trans (exec_after _ _), hgrows⟩
  · exact ⟨_, e, faults_grow_of_eq (ignoredAccess_faults c (takeItem rest (beginStep s)))⟩
  · exact ⟨_, e, faults_grow_of_eq (pollOnce_faults (takeItem rest (beginStep s)))⟩
  · exact ⟨_, e, faults_grow_of_eq (setRstN_faults level (takeItem rest (beginStep s)))⟩

/-- Settles O27: an instruction by the shapes of `Effect`, a step by its kinds. -/
theorem theFaultRecordOnlyGrows : Obligations.TheFaultRecordOnlyGrows := by
  refine ⟨fun i s t ht => effect_faults (effect_of_exec ht), fun s t ht => ?_⟩
  obtain ⟨u, hu, hgrows⟩ := step_faults s
  cases hu.symm.trans ht
  exact hgrows

/-- Settles O9: every kind of step goes on, and every instruction has one of the shapes of `Effect`. -/
theorem noStepStops : Obligations.NoStepStops := by
  refine ⟨fun s => ?_, fun i s => ⟨after i s, exec_after i s⟩⟩
  obtain ⟨t, ht, -⟩ := step_faults s
  exact ⟨t, ht⟩

end Sys2Proof.Machine
end

section
/-! How long a command keeps the unit running (spec/70_reset_and_hazards.md R292): the cycles left count down by one, and the cycle
that finishes the command is the one with one cycle left. -/

namespace Sys2Proof.Machine.CompUnit

variable {p : Config.Form} {u : CompUnit}

/-- The cycle that finishes the command is the last of the cycles left. -/
theorem clock_finishes_iff (hc : u.cycle < p.tBlock) : (u.clock p).2 = true ↔ u.cyclesLeft p = 1 := by
  rcases cyclesLeft_clock p u hc with ⟨hmore, hleft, hc'⟩ | ⟨hlast, hleft⟩
  · have hpos : 0 < (u.clock p).1.cyclesLeft p := by rw [cyclesLeft]; omega
    rw [hmore]
    exact ⟨nofun, by omega⟩
  · exact iff_of_true hlast hleft

/-- Until the command finishes every clock cycle takes one off the cycles left. -/
theorem cyclesLeft_clocks {n : Nat} (hc : u.cycle < p.tBlock) (hn : n < u.cyclesLeft p) :
    (clocks p n u).cyclesLeft p + n = u.cyclesLeft p ∧ (clocks p n u).cycle < p.tBlock := by
  induction n generalizing u with
  | zero => exact ⟨rfl, hc⟩
  | succ n ih =>
    rcases cyclesLeft_clock p u hc with ⟨-, hleft, hc'⟩ | ⟨-, hleft⟩
    · obtain ⟨hcount, hcycle⟩ := ih hc' (by omega)
      exact ⟨by rw [clocks]; omega, hcycle⟩
    · omega

/-- The combinational form takes one clock cycle for a block (spec/43_compression.md R224). -/
theorem tBlock_combinational (hp : p.pipelined = false) (hr : p.roundsPerCycle = .r80) : p.tBlock = 1 := by
  simp [Config.Form.tBlock, hp, hr]

/-- An iterative form needs the cycles of its rounds (spec/43_compression.md R223). -/
theorem rounds_le_tBlock (hp : p.pipelined = false) : 80 / p.roundsPerCycle.count ≤ p.tBlock := by
  cases hr : p.roundsPerCycle <;> simp [Config.Form.tBlock, hp, hr, Config.RoundsPerCycle.count]

/-- Settles O44: the cycles left of a started unit are those of R292, and one of them goes in every clock cycle. -/
theorem busyLastsItsCycles : Obligations.BusyLastsItsCycles := by
  refine ⟨fun p H blocks u n h hn => ?_, fun p => ⟨tBlock_pos p, tBlock_combinational, rounds_le_tBlock⟩⟩
  have hleft := cyclesLeft_start p H u h
  have hc : (u.start p H blocks).cycle < p.tBlock := by rw [cycle_start p H u h]; exact tBlock_pos p
  obtain ⟨hcount, hcycle⟩ := cyclesLeft_clocks hc (hleft ▸ hn)
  rw [clock_finishes_iff hcycle]
  omega

/-- A cycle that does not finish the command brings its end nearer, whatever the unit holds. The waiting blocks are counted once
more because a unit that stands past its block's cycles, as no run leaves it, has none of them left to take off. -/
theorem cyclesLeft_waiting_clock_lt (h : (u.clock p).2 = false) :
    (u.clock p).1.cyclesLeft p + (u.clock p).1.next.length < u.cyclesLeft p + u.next.length := by
  by_cases hov : 0 < u.overhead
  · simp only [clock_overhead p hov, cyclesLeft]
    omega
  have h0 : u.overhead = 0 := by omega
  cases hl : u.lastCycle p
  · have hroom : ¬ p.tBlock ≤ u.cycle + 1 := by simpa [lastCycle] using hl
    simp only [clock_inBlock p h0 hl, cyclesLeft, rounds_overhead, rounds_next]
    omega
  · cases hn : u.next with
    | nil => simp [clock_lastBlock p h0 hl hn] at h
    | cons B rest =>
      simp only [clock_nextBlock p h0 hl hn, cyclesLeft, load, rounds_overhead, hn, List.length_cons, Nat.add_mul]
      omega

end Sys2Proof.Machine.CompUnit
end

section
/-! A POLL ends (spec/70_reset_and_hazards.md R295): the host's reads use up the wait for the engine's next clock cycle, and the
clock cycles use up the command. -/

namespace Sys2Proof.Machine

/-- Some number of steps of the machine leads from `s` to `t`. -/
def Reaches (s t : State) : Prop := ∃ n, Sys2Proof.core.run n s = .next t

theorem Reaches.refl (s : State) : Reaches s s := ⟨0, rfl⟩

theorem run_succ {s t : State} (n : Nat) (h : step s = .next t) :
    Sys2Proof.core.run (n + 1) s = Sys2Proof.core.run n t := by
  have hstep : Sys2Proof.core.step s = .next t := h
  simp only [Host.Core.run, hstep]

theorem Reaches.head {s t u : State} (h : step s = .next t) (ht : Reaches t u) : Reaches s u := by
  obtain ⟨n, hn⟩ := ht
  exact ⟨n + 1, (run_succ n h).trans hn⟩

/-! ## The steps of the loop -/

section
variable {s : State} {rest : List HostItem}

theorem step_poll (hp : s.pending = .poll :: rest) (ht : s.engineTurn = false) :
    step s = .next (pollOnce (takeItem rest (beginStep s))) := by
  rw [step_hostTurn ht, hostStep, beginStep_pending, hp]

theorem engineTurn_idle (hs : s.inflight = .none) : s.engineTurn = false := by
  simp [State.engineTurn, State.busy, hs]

/-- With nothing in flight a POLL reads STATUS and is over. -/
theorem step_poll_idle (hp : s.pending = .poll :: rest) (hr : s.rstN = true) (hs : s.inflight = .none) :
    step s = .next { s with rdata := some s.status, pending := rest, engineWait := s.engineWait - 1 } := by
  have hbusy : s.busy = false := by simp [State.busy, hs]
  rw [step_poll hp (engineTurn_idle hs), pollOnce_idle (s := takeItem rest (beginStep s)) hr hbusy]
  rfl

/-- While the engine waits with a command in flight, a POLL reads STATUS and comes again. -/
theorem step_poll_wait (hp : s.pending = .poll :: rest) (hr : s.rstN = true) (hs : s.inflight ≠ .none)
    (hw : s.engineWait ≠ 0) : step s = .next { s with rdata := some s.status, engineWait := s.engineWait - 1 } := by
  have ht : s.engineTurn = false := by simp [State.engineTurn, hp, hw]
  have hbusy : s.busy = true := by simp [State.busy, hs]
  rw [step_poll hp ht, pollOnce_busy (s := takeItem rest (beginStep s)) hr hbusy, takeItem_pending, ← hp]
  rfl

theorem engineTurn_waited (hs : s.inflight ≠ .none) (hw : s.engineWait = 0) : s.engineTurn = true := by
  simp [State.engineTurn, State.busy, hs, hw]

/-- A clock cycle before the command's last moves the unit, and a new wait is drawn. -/
theorem step_clock (hs : s.inflight ≠ .none) (hw : s.engineWait = 0) (h : (s.unit.clock Config.form).2 = false) :
    step s = .next { s with
      unit := (s.unit.clock Config.form).1
      rdata := none
      engineWait := Config.hostAccesses s.draws
      draws := s.draws + 1 } := by
  rw [step_engineTurn (engineTurn_waited hs hw)]
  rcases engineStep_cases (beginStep s) with ⟨hlast, -⟩ | ⟨-, e⟩
  · exact absurd (h.symm.trans hlast) Bool.false_ne_true
  · rw [e]
    rfl

/-- The command's last clock cycle is its completion step. -/
theorem step_lastClock (hs : s.inflight ≠ .none) (hw : s.engineWait = 0)
    (h : (s.unit.clock Config.form).2 = true) :
    step s = .next { complete s with unit := (s.unit.clock Config.form).1, rdata := none } := by
  rw [step_engineTurn (engineTurn_waited hs hw)]
  rcases engineStep_cases (beginStep s) with ⟨-, e⟩ | ⟨hmore, -⟩
  · rw [e, complete_eq]
    rfl
  · exact absurd (hmore.symm.trans h) Bool.false_ne_true

end

/-! ## The loop -/

/-- The core `s` in the course of a POLL: what the loop moves is the hidden unit, the read data and the model's own counters. -/
def duringPoll (s : State) (u : CompUnit) (r : Option Word) (w d : Nat) : State :=
  { s with unit := u, rdata := r, engineWait := w, draws := d }

theorem complete_duringPoll (s : State) (u : CompUnit) (r : Option Word) (w d : Nat) :
    complete (duringPoll s u r w d) = duringPoll (complete s) u r w d := by
  rw [complete_eq, complete_eq]
  rfl

/-- From `now` the POLL of `s` ends, with the command of `s` completed and STATUS read after that. -/
def PollEnds (s : State) (rest : List HostItem) (now : State) : Prop :=
  ∃ u w d, Reaches now (duringPoll { complete s with pending := rest } u (some (complete s).status) w d)

theorem PollEnds.head {s now next : State} {rest : List HostItem} (h : step now = .next next)
    (hn : PollEnds s rest next) : PollEnds s rest now := by
  obtain ⟨u, w, d, hreach⟩ := hn
  exact ⟨u, w, d, hreach.head h⟩

section
variable {s : State} {rest : List HostItem} (hp : s.pending = .poll :: rest) (hr : s.rstN = true)
include hp hr

/-- Once nothing is in flight one read ends the POLL. -/
theorem pollEnds_completed (u : CompUnit) (r : Option Word) (w d : Nat) :
    PollEnds s rest (duringPoll (complete s) u r w d) := by
  have hstep : step (duringPoll (complete s) u r w d) =
      .next (duringPoll { complete s with pending := rest } u (some (complete s).status) (w - 1) d) := by
    rw [complete_eq]
    exact step_poll_idle hp hr rfl
  exact ⟨u, w - 1, d, .head hstep (.refl _)⟩

/-- With a command in flight: by the cycles the unit still needs, and between two of them by the engine's wait. -/
theorem pollEnds_inFlight (hs : s.inflight ≠ .none) (u : CompUnit) (r : Option Word) (w d : Nat) :
    PollEnds s rest (duringPoll s u r w d) := by
  induction hm : u.cyclesLeft Config.form + u.next.length using Nat.strong_induction_on generalizing u r w d with
  | _ m nextCycle =>
  induction w generalizing r with
  | zero =>
    cases hlast : (u.clock Config.form).2
    · have hnearer := CompUnit.cyclesLeft_waiting_clock_lt hlast
      exact .head (step_clock hs rfl hlast) (nextCycle _ (hm ▸ hnearer) _ _ _ _ rfl)
    · have hstep := step_lastClock (s := duringPoll s u r 0 d) hs rfl hlast
      rw [complete_duringPoll] at hstep
      exact .head hstep (pollEnds_completed hp hr _ _ _ _)
  | succ w nextRead => exact .head (step_poll_wait hp hr hs (Nat.succ_ne_zero w)) (nextRead _)

theorem pollEnds : PollEnds s rest s := by
  by_cases hs : s.inflight = .none
  · have hdone : complete s = s := by rw [complete, hs]
    have h := pollEnds_completed hp hr s.unit s.rdata s.engineWait s.draws
    rwa [hdone] at h
  · exact pollEnds_inFlight hp hr hs s.unit s.rdata s.engineWait s.draws

end

/-- Settles O45: the loop ends with the command completed, and completion moves INFLIGHT and DVALID alone. -/
theorem everyPollEnds : Obligations.EveryPollEnds := by
  intro s rest hp hr
  obtain ⟨u, w, d, n, hrun⟩ := pollEnds hp hr
  rw [complete_eq] at hrun
  exact ⟨n, _, hrun, rfl, rfl, rfl, rfl, rfl, rfl, rfl, rfl, rfl, rfl, rfl, rfl, rfl, rfl⟩

end Sys2Proof.Machine
end

section
/-! Hardware reset by the pin (spec/70_reset_and_hazards.md R280 to R282): the step that takes a level, and an access while the level
is 0. -/

namespace Sys2Proof.Machine.ResetPin

section
variable {s : State} {rest : List HostItem} (ht : s.engineTurn = false)
include ht

/-- The pin goes to 0, or the core is in reset and the pin takes any level: the core takes its reset values. -/
theorem step_rst {level : Bool} (hp : s.pending = .rst level :: rest) (h : level = false ∨ s.rstN = false) :
    step s = .next { hardwareReset (takeItem rest (beginStep s)) with rstN := level } := by
  rw [step_hostTurn ht, hostStep, beginStep_pending, hp]
  rcases setRstN_cases level (takeItem rest (beginStep s)) with ⟨hl, hr, -⟩ | ⟨-, e⟩
  · exact absurd h (by simp [hl, show s.rstN = true from hr])
  · exact congrArg Host.Outcome.next e

/-- An access in reset does not run. -/
theorem step_access_inReset {c : Code} (hp : s.pending = .access c :: rest) (hr : s.rstN = false) :
    step s = .next (ignoredAccess c (takeItem rest (beginStep s))) := by
  rw [step_hostTurn ht, hostStep, beginStep_pending, hp]
  exact if_neg (by simp [hr])

end

theorem ignoredAccess_read {op : BitVec 7} (v : Word) (s : State) (h : op.getLsbD 6 = false) :
    ignoredAccess (.bus op v) s = returnWord 0 s := by
  have hread : weField op = false := h
  simp [ignoredAccess, hread]

theorem status_reset : State.reset.status = 0 := by decide

/-- STATUS reads the core's registers alone, and they hold their reset values. -/
theorem status_hardwareReset (s : State) (level : Bool) : ({ hardwareReset s with rstN := level } : State).status = 0 :=
  status_reset

/-- Settles O60: both changes of the pin give the reset values, and an access between them touches the read data alone. -/
theorem hardwareReset : Obligations.HardwareReset := by
  refine ⟨fun s rest hp ht => ?_, fun s c rest hp ht hr => ?_, fun s rest hp ht hr => ?_⟩
  · exact ⟨_, step_rst ht hp (.inl rfl), rfl, rfl, rfl, rfl, rfl, rfl, rfl, rfl, status_hardwareReset _ _, rfl⟩
  · refine ⟨_, step_access_inReset ht hp hr, ?_, ?_⟩
    · rw [ignoredAccess_eq]
      rfl
    · rintro ⟨op, v, rfl, hread⟩
      rw [ignoredAccess_read v _ hread, returnWord_rdata]
  · exact ⟨_, step_rst ht hp (.inr hr), rfl, rfl, rfl, rfl, rfl, rfl, rfl, status_hardwareReset _ _, rfl⟩

end Sys2Proof.Machine.ResetPin
end
